-- ==== Sys2Proof/Word.lean ====
section
/-! DEFINITION. The widths the spec gives its quantities (00_scope.md R8, 10_state.md R22). -/

namespace Sys2Proof

/-- `u8`: a port byte, a colour channel, the speed (R8). -/
abbrev Byte := BitVec 8

/-- `u16`: the raw-pulse width operand (R83). -/
abbrev Half := BitVec 16

/-- `u32`: a millisecond clock value (R33, R226). Subtraction wraps modulo 2^32. -/
abbrev Time := BitVec 32

/-- The believed receiver state 0..7. Addition wraps modulo 8 (R27). -/
abbrev Index := BitVec 3

end Sys2Proof
end

