-- ==== Sys2Proof/Config.lean ====
section
/-! DEFINITION. The implementation parameters (00_scope.md R6), the test configuration TC, and the one free value
of the model. -/

namespace Sys2Proof

/-- The parameters of R6, which "the model takes as arguments". `State.cfg` carries them and no step writes them
(Log 1). The constraints of R6 are `Config.Valid` (WellFormed.lean). -/
structure Config where
  /-- `PULSE_WIDTH_US`: LOW width of each index-advance pulse, in µs. -/
  pulseWidthUs : Nat
  /-- `HOLD_QUANTUM_US`: the fixed time quantum of `hold = value × quantum`, in µs. -/
  holdQuantumUs : Nat
  /-- `T_RESET_LOW_US`: LOW hold of a resync, in µs. -/
  tResetLowUs : Nat
  /-- `T_RESET_HIGH_US`: HIGH hold of a resync, in µs. -/
  tResetHighUs : Nat
  /-- `SWEEP_W_HI_US`: first (longest) width of the desync ramp, in µs. -/
  sweepHiUs : Nat
  /-- `SWEEP_W_LO_US`: lower bound of the ramp, in µs. -/
  sweepLoUs : Nat
  /-- `SWEEP_W_STEP_US`: the ramp's fixed step, in µs. -/
  sweepStepUs : Nat
  /-- `MIN_RATE`, in degrees per second. -/
  minRate : Nat
  /-- `MAX_RATE`, in degrees per second. -/
  maxRate : Nat
  /-- `FADE_STEP`: channel increment per FADE step. -/
  fadeStep : Nat
  /-- `IDX_RED`: the receiver state index of the red primary. -/
  idxRed : Index
  /-- `IDX_GREEN`. -/
  idxGreen : Index
  /-- `IDX_BLUE`. -/
  idxBlue : Index
  /-- `T_CMD_TIMEOUT_MS`: the inter-byte timeout, in ms. -/
  tCmdTimeoutMs : Nat
deriving DecidableEq, Repr

/-- The test configuration TC of R6. "TC is not a claim about the hardware." -/
def Config.tc : Config where
  pulseWidthUs := 10
  holdQuantumUs := 4
  tResetLowUs := 1100000
  tResetHighUs := 1000000
  sweepHiUs := 2000
  sweepLoUs := 200
  sweepStepUs := 200
  minRate := 6
  maxRate := 360
  fadeStep := 5
  idxRed := 1
  idxGreen := 2
  idxBlue := 3
  tCmdTimeoutMs := 100

/-- The clock value the sequencer samples when no input is scheduled: "each sampled `now` is a free draw" (R226,
93 I10). It has no body, so nothing can be proved of its values. It is applied to `State.draws` (Log 4). -/
opaque Config.freeNowMs : Nat → Time

end Sys2Proof
end

