-- ==== Sys2Proof/Syntax.lean ====
section
/-! DEFINITION. The syntax of the block's port: opcodes and frame formats (30_encoding.md R80, R82), the commands
(one constructor for each row of the opcode table), the statements of a command program (R92), and the inputs the
outside world delivers (60_exceptions.md R231). -/

namespace Sys2Proof

/-- The three frame formats (R80). -/
inductive Format
  /-- Opcode byte alone. -/
  | f0
  /-- Opcode byte and one parameter byte. -/
  | f1
  /-- Opcode byte and three parameter bytes. -/
  | f3
deriving DecidableEq, Repr

/-- The fourteen opcodes of R82. Byte values are in Decode.lean. -/
inductive Opcode
  | init | setColor | getColor | setMode | getMode | startAsync | stopAsync | isAsync
  | setSpeed | getSpeed | turnOn | turnOff | isOn | sendPulse
deriving DecidableEq, Repr

/-- A command with its operands as R83 assembles them. Every value of every operand is a legal frame (R90), so the
operand types admit exactly what the encoding admits. -/
inductive Instr
  /-- INIT p0 (R150). -/
  | init (p0 : Byte)
  /-- SET_COLOR r, g, b (R130). -/
  | setColor (r g b : Byte)
  /-- GET_COLOR (R131). -/
  | getColor
  /-- SET_MODE id (R152). Ids 4..255 are legal frames whose command fails (R90). -/
  | setMode (id : Byte)
  /-- GET_MODE (R153). -/
  | getMode
  /-- START_ASYNC (R180). -/
  | startAsync
  /-- STOP_ASYNC (R181). -/
  | stopAsync
  /-- IS_ASYNC (R182). -/
  | isAsync
  /-- SET_SPEED value (R212). -/
  | setSpeed (value : Byte)
  /-- GET_SPEED (R213). -/
  | getSpeed
  /-- TURN_ON (R170). -/
  | turnOn
  /-- TURN_OFF (R171). -/
  | turnOff
  /-- IS_ON (R172). -/
  | isOn
  /-- SEND_PULSE count, widthMicros (R114). -/
  | sendPulse (count : Byte) (widthMicros : Half)
deriving DecidableEq, Repr

/-- A statement of a command program (R92); the same four items are the inputs of the frame-level view (R88). -/
inductive Stmt
  /-- A complete frame. -/
  | command (i : Instr)
  /-- `TICK @t`: one sequencer tick with `NOW_MS = t`. -/
  | tick (t : Time)
  /-- `TRUNC`: a partial frame followed by a timeout. -/
  | trunc (op : Opcode) (got : List Byte)
  /-- `BYTE`: a raw byte sent as an opcode byte. -/
  | byte (b : Byte)
deriving DecidableEq, Repr

/-- What the outside world delivers to the block between steps (R231). -/
inductive Input
  /-- Byte `b` arrives on CMD_IN at clock time `arrival`; the step that takes it samples `NOW_MS = now` (Log 3). -/
  | byte (b : Byte) (arrival now : Time)
  /-- The clock reads `t` and no byte has arrived (R86). -/
  | poll (t : Time)
  /-- The sequencer ticks, sampling `NOW_MS = now` (R160). -/
  | tick (now : Time)
  /-- RST is asserted between steps (R250). -/
  | rst
deriving DecidableEq, Repr

end Sys2Proof
end

