-- ==== Sys2Proof/Decode.lean ====
section
/-! DEFINITION. Command-frame encoding and decoding (30_encoding.md R80 to R92): the opcode map, the frame lengths,
the decoder (total on any bytes, rejecting by name), the encoder, and the assembler syntax of R92. -/

namespace Sys2Proof

/-! ## Opcode map and frame lengths -/

/-- The opcode byte of each command (R82). -/
def Opcode.byte : Opcode → Byte
  | .init => 0x01
  | .setColor => 0x10
  | .getColor => 0x11
  | .setMode => 0x20
  | .getMode => 0x21
  | .startAsync => 0x30
  | .stopAsync => 0x31
  | .isAsync => 0x32
  | .setSpeed => 0x40
  | .getSpeed => 0x41
  | .turnOn => 0x50
  | .turnOff => 0x51
  | .isOn => 0x52
  | .sendPulse => 0x60

/-- The frame format of each command (R82). -/
def Opcode.format : Opcode → Format
  | .init => .f1
  | .setColor => .f3
  | .getColor => .f0
  | .setMode => .f1
  | .getMode => .f0
  | .startAsync => .f0
  | .stopAsync => .f0
  | .isAsync => .f0
  | .setSpeed => .f1
  | .getSpeed => .f0
  | .turnOn => .f0
  | .turnOff => .f0
  | .isOn => .f0
  | .sendPulse => .f3

/-- The parameter bytes of a format (R80). -/
def Format.paramCount : Format → Nat
  | .f0 => 0
  | .f1 => 1
  | .f3 => 3

/-- `k(op)` of R89: "0 for an F0 opcode, 1 for F1 and 3 for F3". -/
def Opcode.paramCount (op : Opcode) : Nat := op.format.paramCount

/-- The rows of R82, in the table's order. -/
def Opcode.all : List Opcode :=
  [.init, .setColor, .getColor, .setMode, .getMode, .startAsync, .stopAsync, .isAsync,
   .setSpeed, .getSpeed, .turnOn, .turnOff, .isOn, .sendPulse]

/-- The command of an opcode byte, none for the 242 illegal values (R87). -/
def Opcode.ofByte (b : Byte) : Option Opcode :=
  Opcode.all.find? fun op => op.byte == b

/-! ## Operand assembly -/

/-- Parameter byte `p<n>` of a frame (R80). `assemble` reads only bytes that the frame has (Log 11). -/
def paramByte (ps : List Byte) (n : Nat) : Byte := ps.getD n 0

/-- `p1 ++ p2` of R83: the first byte is the high byte (R61, big-endian). -/
def bigEndian16 (hi lo : Byte) : Half := hi ++ lo

/-- The command of an opcode and its `k(op)` parameter bytes (R83). -/
def assemble (op : Opcode) (ps : List Byte) : Instr :=
  match op with
  | .init => .init (paramByte ps 0)
  | .setColor => .setColor (paramByte ps 0) (paramByte ps 1) (paramByte ps 2)
  | .getColor => .getColor
  | .setMode => .setMode (paramByte ps 0)
  | .getMode => .getMode
  | .startAsync => .startAsync
  | .stopAsync => .stopAsync
  | .isAsync => .isAsync
  | .setSpeed => .setSpeed (paramByte ps 0)
  | .getSpeed => .getSpeed
  | .turnOn => .turnOn
  | .turnOff => .turnOff
  | .isOn => .isOn
  | .sendPulse => .sendPulse (paramByte ps 0) (bigEndian16 (paramByte ps 1) (paramByte ps 2))

/-! ## Decoder -/

/-- Why a byte string is not a frame. -/
inductive Reject
  /-- There is no byte to decode. -/
  | noBytes
  /-- The first byte is one of the 242 illegal opcodes (R87). -/
  | illegalOpcode (b : Byte)
  /-- The opcode is known and fewer than `k(op)` parameter bytes follow (R86, R88). -/
  | truncated (op : Opcode) (got : List Byte)
deriving DecidableEq, Repr

/-- Decode the frame that starts at the first byte, and give the bytes after it. The opcode byte alone fixes the
length (R89, R91). -/
def decode : List Byte → Except Reject (Instr × List Byte)
  | [] => .error .noBytes
  | b :: rest =>
    match Opcode.ofByte b with
    | none => .error (.illegalOpcode b)
    | some op =>
      if rest.length < op.paramCount then .error (.truncated op rest)
      else .ok (assemble op (rest.take op.paramCount), rest.drop op.paramCount)

/-! ## Encoder -/

/-- The opcode of a command. -/
def Instr.opcode : Instr → Opcode
  | .init _ => .init
  | .setColor _ _ _ => .setColor
  | .getColor => .getColor
  | .setMode _ => .setMode
  | .getMode => .getMode
  | .startAsync => .startAsync
  | .stopAsync => .stopAsync
  | .isAsync => .isAsync
  | .setSpeed _ => .setSpeed
  | .getSpeed => .getSpeed
  | .turnOn => .turnOn
  | .turnOff => .turnOff
  | .isOn => .isOn
  | .sendPulse _ _ => .sendPulse

/-- The parameter bytes of a command, in increasing byte number (R80, R83). -/
def Instr.params : Instr → List Byte
  | .init p0 => [p0]
  | .setColor r g b => [r, g, b]
  | .setMode id => [id]
  | .setSpeed value => [value]
  | .sendPulse count width => [count, width.extractLsb' 8 8, width.extractLsb' 0 8]
  | .getColor | .getMode | .startAsync | .stopAsync | .isAsync | .getSpeed | .turnOn | .turnOff | .isOn => []

/-- The frame of a command (R80): the opcode byte, then the parameter bytes. -/
def encode (i : Instr) : List Byte := i.opcode.byte :: i.params

/-! ## The table's numbering of an instruction's bits -/

/-- The longest frame's bytes of `w`, the first byte the least significant; the bits from `nbits` up are 0. -/
def tableBytes (nbits w : Nat) : List Byte :=
  let v := w % 2 ^ nbits
  [BitVec.ofNat 8 v, BitVec.ofNat 8 (v / 2 ^ 8), BitVec.ofNat 8 (v / 2 ^ 16), BitVec.ofNat 8 (v / 2 ^ 24)]

/-- What the decoder reads from the frame whose bits are `w`, numbered as spec/opcode_table.json numbers them. -/
def decodeTableWord (nbits w : Nat) : Option Instr :=
  match decode (tableBytes nbits w) with
  | .ok (i, _) => some i
  | .error _ => none

/-! ## Assembler syntax (R92)

A statement is a mnemonic and comma-separated operands. The assembler reads a list of characters. DESIGN CHOICE: what R92
leaves open of the spelling is fixed as Log 14 lists. -/

/-- The mnemonic of each opcode, as R82 spells it. -/
def Opcode.mnemonic : Opcode → String
  | .init => "INIT"
  | .setColor => "SET_COLOR"
  | .getColor => "GET_COLOR"
  | .setMode => "SET_MODE"
  | .getMode => "GET_MODE"
  | .startAsync => "START_ASYNC"
  | .stopAsync => "STOP_ASYNC"
  | .isAsync => "IS_ASYNC"
  | .setSpeed => "SET_SPEED"
  | .getSpeed => "GET_SPEED"
  | .turnOn => "TURN_ON"
  | .turnOff => "TURN_OFF"
  | .isOn => "IS_ON"
  | .sendPulse => "SEND_PULSE"

/-- The command of a mnemonic. -/
def Opcode.ofMnemonic (m : List Char) : Option Opcode :=
  Opcode.all.find? fun op => op.mnemonic.toList == m

/-- A digit's value in base `base`. -/
def digitValue (base : Nat) (c : Char) : Option Nat :=
  let n := c.toNat
  let v :=
    if 48 ≤ n ∧ n ≤ 57 then n - 48
    else if 65 ≤ n ∧ n ≤ 70 then n - 55
    else if 97 ≤ n ∧ n ≤ 102 then n - 87
    else base
  if v < base then some v else none

/-- The digits `cs` in base `base`, read on from the value `acc`. -/
def digitsValue (base acc : Nat) : List Char → Option Nat
  | [] => some acc
  | c :: cs =>
    match digitValue base c with
    | none => none
    | some d => digitsValue base (acc * base + d) cs

/-- A number: "decimal, or hex with `0x`". -/
def parseNumber : List Char → Option Nat
  | [] => none
  | '0' :: 'x' :: c :: cs => digitsValue 16 0 (c :: cs)
  | cs => digitsValue 10 0 cs

/-- A number below `2 ^ w`. -/
def parseBits (w : Nat) (cs : List Char) : Option (BitVec w) :=
  match parseNumber cs with
  | none => none
  | some n => if n < 2 ^ w then some (BitVec.ofNat w n) else none

/-- A mode id: a number, or one of the four names. -/
def parseModeId (cs : List Char) : Option Byte :=
  if cs = "SOLID".toList then some 0
  else if cs = "JUMP".toList then some 1
  else if cs = "FADE".toList then some 2
  else if cs = "USER".toList then some 3
  else parseBits 8 cs

/-- The comma-separated fields of `cs`; `acc` is the field being read. DESIGN CHOICE (R92 leaves both open): spaces are
dropped, and an empty last field is dropped, so a trailing comma is no operand (Log 14). -/
def splitFields (acc : List Char) : List Char → List (List Char)
  | [] => if acc.isEmpty then [] else [acc]
  | ',' :: cs => acc :: splitFields [] cs
  | ' ' :: cs => splitFields acc cs
  | c :: cs => splitFields (acc ++ [c]) cs

/-- The first word of `cs`, and what follows it. -/
def splitWord (acc : List Char) : List Char → List Char × List Char
  | [] => (acc, [])
  | ' ' :: cs => (acc, cs)
  | c :: cs => splitWord (acc ++ [c]) cs

/-- Fields read as one parameter byte each: the byte operands of a command, and the bytes of a TRUNC. DESIGN CHOICE (R92
shows TRUNC with whole byte operands only): the fields of TRUNC are raw parameter bytes, so a SEND_PULSE cut inside its
width is written by its bytes, and `TRUNC SEND_PULSE 3, 1` is the bytes 60 03 01 (Log 14). -/
def parseBytes : List (List Char) → Option (List Byte)
  | [] => some []
  | f :: fs =>
    match parseBits 8 f, parseBytes fs with
    | some b, some bs => some (b :: bs)
    | _, _ => none

/-- A command from its opcode and its operand fields. -/
def parseCommand (op : Opcode) (fields : List (List Char)) : Option Instr :=
  match op, fields with
  | .setMode, [id] => (parseModeId id).map .setMode
  | .sendPulse, [count, width] =>
    match parseBits 8 count, parseBits 16 width with
    | some n, some w => some (.sendPulse n w)
    | _, _ => none
  | .sendPulse, _ => none
  | op, fields =>
    match parseBytes fields with
    | none => none
    | some ps => if ps.length = op.paramCount then some (assemble op ps) else none

/-- A statement of the assembler syntax of R92. -/
def parseStmt (cs : List Char) : Option Stmt :=
  let (word, rest) := splitWord [] cs
  if word = "TICK".toList then
    match rest with
    | '@' :: t => (parseBits 32 t).map .tick
    | _ => none
  else if word = "BYTE".toList then
    (parseBits 8 rest).map .byte
  else if word = "TRUNC".toList then
    let (m, operands) := splitWord [] rest
    match Opcode.ofMnemonic m, parseBytes (splitFields [] operands) with
    | some op, some got => some (.trunc op got)
    | _, _ => none
  else
    match Opcode.ofMnemonic word with
    | none => none
    | some op => (parseCommand op (splitFields [] rest)).map .command

end Sys2Proof
end

