-- ==== Sys2Proof/WellFormed.lean ====
section
/-! DEFINITION. What the block accepts: configurations inside the constraints of 00_scope.md R6, complete frames
(30_encoding.md R80), and program statements (R88, R92). -/

namespace Sys2Proof

/-- The constraints of R6 on the parameters, one conjunct a row of its table (and one for `MAX_RATE ≤ 1000`, 92 D42).
A configuration outside them is refused (R7). -/
abbrev Config.Valid (c : Config) : Prop :=
  1 ≤ c.pulseWidthUs ∧
  1 ≤ c.holdQuantumUs ∧
  1000000 < c.tResetLowUs ∧
  1 ≤ c.tResetHighUs ∧
  c.sweepLoUs ≤ c.sweepHiUs ∧
  1 ≤ c.sweepLoUs ∧
  1 ≤ c.sweepStepUs ∧
  (1 ≤ c.minRate ∧ c.minRate ≤ c.maxRate) ∧
  c.maxRate ≤ 1000 ∧
  (1 ≤ c.fadeStep ∧ c.fadeStep ≤ 255) ∧
  (c.idxRed ≠ c.idxGreen ∧ c.idxRed ≠ c.idxBlue ∧ c.idxGreen ≠ c.idxBlue) ∧
  1 ≤ c.tCmdTimeoutMs

/-- A byte string is one complete frame: a known opcode byte and exactly `k(op)` parameter bytes (R80, R89). -/
def frameWellFormed : List Byte → Bool
  | [] => false
  | b :: ps =>
    match Opcode.ofByte b with
    | none => false
    | some op => ps.length == op.paramCount

/-- A command is well formed when its encoding is a complete frame. By R90 no operand value makes it ill formed. -/
def Instr.wellFormed (i : Instr) : Bool := frameWellFormed (encode i)

/-- A statement is one of R88's input items: `TRUNC` has fewer bytes than its frame needs, `BYTE` is no opcode. -/
def Stmt.wellFormed : Stmt → Bool
  | .command i => i.wellFormed
  | .tick _ => true
  | .trunc op got => decide (got.length < op.paramCount)
  | .byte b => (Opcode.ofByte b).isNone

end Sys2Proof
end

