-- ==== Sys2Proof/Machine/State.lean ====
section
/-! DEFINITION. The machine's state: every register of 10_state.md R22, the reply stream (R35), the ports and the
configuration; the reasons a step can stop; and the state after RST (R38). -/

namespace Sys2Proof.Machine

/-- The four animation modes (R26). -/
inductive Mode
  | solid | jump | fade | user
deriving DecidableEq, Repr

/-- The level the block drives on LINE (R34): `z` is undriven. -/
inductive Line
  | z | lo | hi
deriving DecidableEq, Repr

/-- The two levels `Drive` takes (00_scope.md R9). -/
inductive Level
  | lo | hi
deriving DecidableEq, Repr

/-- An event of the line trace (R35). -/
inductive LineEvent
  | lo
  | hi
  /-- A busy-wait of `us` µs at the standing level. -/
  | hold (us : Nat)
deriving DecidableEq, Repr

/-- The colour accumulator `rgb` (R28). -/
structure Rgb where
  r : Byte
  g : Byte
  b : Byte
deriving DecidableEq, Repr

/-- The hold registers, in µs (R29). -/
structure Holds where
  r : Nat
  g : Nat
  b : Nat
deriving DecidableEq, Repr

/-- The frame-assembly state of the command port (R36). -/
inductive Parser
  | idle
  /-- `op` has been received, `got` are its parameter bytes so far, the last byte arrived at `t0`. -/
  | collect (op : Opcode) (got : List Byte) (t0 : Time)
deriving DecidableEq, Repr

/-- Why the machine would stop with a fault. It has no constructor: "The block raises no exceptions and has no trap
mechanism" (60_exceptions.md R220, R224). Nothing raises it, so it is safe: a run never ends in a fault (Log 9). -/
inductive Fault
deriving DecidableEq, Repr

/-- Why a step has no meaning. -/
inductive Refusal
  /-- Raised by an arm of `exec` whose instruction has no meaning yet; no arm is such. Safe: the machine stops. -/
  | notModelled (mnemonic : String)
  /-- Raised by `step` on a configuration outside the constraints of R6: "A model must refuse such a configuration
  rather than run it" (R7). Safe: the machine stops. -/
  | configOutOfRange
deriving DecidableEq, Repr

/-- The block state of R22, its ports, and what the model adds (INVENTORY.md, State). -/
structure State where
  /-- The parameters of R6. Not a register (R39): no step and no RST writes it (Log 1). -/
  cfg : Config
  /-- INIT has run (R23). -/
  started : Bool
  /-- Lights on (R24). -/
  powered : Bool
  /-- Desync sweep in force (R25). -/
  async : Bool
  /-- Animation mode (R26). -/
  mode : Mode
  /-- Believed discrete colour index (R27). -/
  idx : Index
  /-- Colour accumulator (R28). -/
  rgb : Rgb
  /-- Per-channel time-division holds (R29). -/
  hold : Holds
  /-- Speed control (R30). -/
  speed : Byte
  /-- Angular rate, degrees per second (R31). -/
  rate : Nat
  /-- FADE interval, ms (R31). -/
  msPerDeg : Nat
  /-- JUMP interval, ms (R31). -/
  jumpMs : Nat
  /-- Current JUMP hue state 0..5 (R32). -/
  jumpIdx : Fin 6
  /-- Time of the last JUMP or FADE advance (R33). -/
  lastT : Time
  /-- Level driven on LINE (R34). -/
  line : Line
  /-- Output record of LINE, oldest event first (R35). -/
  trace : List LineEvent
  /-- Frame assembly (R36). -/
  parser : Parser
  /-- The reply stream RSP_OUT, oldest byte first (R35). -/
  rsp : List Byte
  /-- The value on the port NOW_MS that the current step samples (R5, R226). Not a register (R39; Log 3). -/
  nowMs : Time
  /-- The inputs still to come, next first (R231, R232; Log 2). -/
  inputs : List Input
  /-- How many free clock draws have been taken. The model's own field (Log 4). -/
  draws : Nat
deriving DecidableEq, Repr

/-- The registers at the values of R38 for the configuration `c`; `rate`, `msPerDeg` and `jumpMs` are "the rule R211
values for speed 0", that is `MIN_RATE`, `1000 div MIN_RATE` and 60 times that. -/
def State.resetWith (c : Config) : State where
  cfg := c
  started := false
  powered := false
  async := false
  mode := .solid
  idx := 0
  rgb := ⟨0, 0, 0⟩
  hold := ⟨0, 0, 0⟩
  speed := 0
  rate := c.minRate
  msPerDeg := 1000 / c.minRate
  jumpMs := 1000 / c.minRate * 60
  jumpIdx := 0
  lastT := 0
  line := .z
  trace := []
  parser := .idle
  rsp := []
  nowMs := 0
  inputs := []
  draws := 0

/-- The machine right after RST (R38, R250), in the test configuration TC (DESIGN CHOICE: the spec gives the
parameters no values; Log 1). -/
def State.reset : State := State.resetWith Config.tc

end Sys2Proof.Machine
end

