-- ==== Sys2Proof/Machine/Operands.lean ====
section
/-! DEFINITION. Operand forms (30_encoding.md R83) and the byte forms of register values on the port (R61, R81). -/

namespace Sys2Proof.Machine

/-- INIT's operand: "any non-zero byte means true" (R83). -/
def startPowered (p0 : Byte) : Bool := p0 != 0

/-- The mode with an id; none for 4..255, which "are not modes" (10_state.md R26). -/
def Mode.ofId (id : Byte) : Option Mode :=
  if id = 0 then some .solid
  else if id = 1 then some .jump
  else if id = 2 then some .fade
  else if id = 3 then some .user
  else none

/-- The id of a mode, as a port byte (R26). -/
def Mode.id : Mode → Byte
  | .solid => 0
  | .jump => 1
  | .fade => 2
  | .user => 3

/-- A boolean data byte: "0x01 for true and 0x00 for false" (R81). -/
def boolByte (b : Bool) : Byte := if b then 0x01 else 0x00

/-- The packed colour `zext_8(r) ++ zext_8(g) ++ zext_8(b)` (R61). -/
def Rgb.packed (c : Rgb) : BitVec 24 := c.r ++ c.g ++ c.b

/-- The colour's bytes on the port, in the order R, G, B (R61). -/
def Rgb.bytes (c : Rgb) : List Byte := [c.r, c.g, c.b]

/-- The status byte of a successful reply (R81). -/
def ackByte : Byte := 0xFF

/-- The status byte of a failure reply (R81). -/
def failByte : Byte := 0x00

/-- `sat(v) = min(255, max(0, v))` clamps an integer to a channel (00_scope.md R8). -/
def sat (v : Int) : Byte := BitVec.ofNat 8 (min 255 (max 0 v)).toNat

end Sys2Proof.Machine
end

