-- ==== Sys2Proof/Machine/Ops.lean ====
section
/-! DEFINITION. The shared operations on the state: the primitives of 00_scope.md R9, the pulse encoder
(40_pulse_encoder.md R110 to R116), and the two derivations (R132, R211).

Taking an exception and returning from one have no operation here: the block has neither (60_exceptions.md R220, R224).
A failing command ends with `reply failByte` (R9). -/

namespace Sys2Proof.Machine

/-! ## Primitives (R9) -/

/-- The level `Drive` leaves on the line. -/
def Level.line : Level → Line
  | .lo => .lo
  | .hi => .hi

/-- The event `Drive` appends. -/
def Level.event : Level → LineEvent
  | .lo => .lo
  | .hi => .hi

/-- `Drive(L)`: sets the line and appends the event, "even when the line already stands at `L`". -/
def drive (l : Level) (s : State) : State :=
  { s with line := l.line, trace := s.trace ++ [l.event] }

/-- `Hold(d)`: appends the event and "changes no register". -/
def holdFor (us : Nat) (s : State) : State :=
  { s with trace := s.trace ++ [.hold us] }

/-- `Reply(b)`: appends the byte to the reply stream. -/
def reply (b : Byte) (s : State) : State :=
  { s with rsp := s.rsp ++ [b] }

/-- `Reply(0xFF)`, then the data bytes of a query (30_encoding.md R81). -/
def replyData (data : List Byte) (s : State) : State :=
  { s with rsp := s.rsp ++ ackByte :: data }

/-! ## Pulse encoder -/

/-- PulseTrain(count, widthMicros) (R110): each pulse is LOW, hold, HIGH, and `idx` advances by one modulo 8. -/
def pulseTrain : Nat → Nat → State → State
  | 0, _, s => s
  | n + 1, width, s =>
    let s := drive .hi (holdFor width (drive .lo s))
    pulseTrain n width { s with idx := s.idx + 1 }

/-- Resync (R112): long LOW, long HIGH, `idx` to 0. -/
def resync (s : State) : State :=
  let s := holdFor s.cfg.tResetHighUs (drive .hi (holdFor s.cfg.tResetLowUs (drive .lo s)))
  { s with idx := 0 }

/-- The pulses from index `idx` to `target`: `(8 + target − idx) mod 8` (R113). -/
def indexDelta (idx target : Index) : Nat := (8 + target.toNat - idx.toNat) % 8

/-- SetIndex(target) (R113). -/
def setIndex (target : Index) (s : State) : State :=
  let s := pulseTrain (indexDelta s.idx target) s.cfg.pulseWidthUs s
  drive .hi { s with idx := target }

/-- UnpoweredRestore (R116): a command that drove the line while unpowered leaves it LOW. -/
def unpoweredRestore (s : State) : State :=
  if s.powered then s else drive .lo s

/-! ## Derivations -/

/-- The holds of a colour: channel value × `HOLD_QUANTUM_US` (10_state.md R29). -/
def holdsOf (c : Config) (rgb : Rgb) : Holds where
  r := rgb.r.toNat * c.holdQuantumUs
  g := rgb.g.toNat * c.holdQuantumUs
  b := rgb.b.toNat * c.holdQuantumUs

/-- DeriveHolds (41_color_mixer.md R132). -/
def deriveHolds (s : State) : State :=
  { s with hold := holdsOf s.cfg s.rgb }

/-- `rate` of a speed: multiply, then floor division (45_speed_model.md R211). -/
def rateOf (c : Config) (speed : Byte) : Nat :=
  c.minRate + speed.toNat * (c.maxRate - c.minRate) / 255

/-- `msPerDeg` of a speed (R211). -/
def msPerDegOf (c : Config) (speed : Byte) : Nat := 1000 / rateOf c speed

/-- `jumpMs` of a speed (R211). -/
def jumpMsOf (c : Config) (speed : Byte) : Nat := msPerDegOf c speed * 60

/-- Recompute (R211). -/
def recompute (s : State) : State :=
  { s with rate := rateOf s.cfg s.speed, msPerDeg := msPerDegOf s.cfg s.speed, jumpMs := jumpMsOf s.cfg s.speed }

end Sys2Proof.Machine
end

