-- ==== Sys2Proof/Machine/Flags.lean ====
section
/-! DEFINITION. The three flags (10_state.md R23 to R25) and the gate every command passes (42_mode_engine.md R151). -/

namespace Sys2Proof.Machine

/-- `S.started <- 1`. Only INIT does this (R23). -/
def setStarted (s : State) : State := { s with started := true }

/-- `S.powered <- v` (R24). -/
def setPowered (v : Bool) (s : State) : State := { s with powered := v }

/-- `S.async <- v` (R25). -/
def setAsync (v : Bool) (s : State) : State := { s with async := v }

/-- The gate of R151: while `started = 0` a command "writes no register, appends no trace event" and replies with the
one byte `silent`. -/
def whenStarted (silent : Byte) (body : State → State) (s : State) : State :=
  if s.started then body s else reply silent s

end Sys2Proof.Machine
end

