-- ==== Sys2Proof/Machine/Async.lean ====
section
/-! DEFINITION. The async desynchroniser (43_async.md). -/

namespace Sys2Proof.Machine

/-- `N_SWEEP`, the length of the ramp (R183). -/
def nSweep (c : Config) : Nat := (c.sweepHiUs - c.sweepLoUs) / c.sweepStepUs + 1

/-- `SweepWidths` (R183): `SWEEP_W_HI_US − k × SWEEP_W_STEP_US` for k = 0, 1, 2, …, while at least `SWEEP_W_LO_US`. -/
def sweepWidths (c : Config) : List Nat :=
  (List.range (nSweep c)).map fun k => c.sweepHiUs - k * c.sweepStepUs

/-- One pulse of each width, in order (R180). -/
def sweepPulses : List Nat → State → State
  | [], s => s
  | w :: ws, s => sweepPulses ws (pulseTrain 1 w s)

/-- START_ASYNC (R180). -/
def execStartAsync (s : State) : Host.Outcome State Fault Refusal :=
  .next (whenStarted ackByte (fun s =>
    reply ackByte (unpoweredRestore (setAsync true (sweepPulses (sweepWidths s.cfg) s)))) s)

/-- STOP_ASYNC (R181): resyncs "regardless of `async`" (92 D30). -/
def execStopAsync (s : State) : Host.Outcome State Fault Refusal :=
  .next (whenStarted ackByte (fun s =>
    reply ackByte (unpoweredRestore (setAsync false (resync s)))) s)

/-- IS_ASYNC (R182); answered before INIT too (R151). -/
def execIsAsync (s : State) : Host.Outcome State Fault Refusal :=
  .next (replyData [boolByte s.async] s)

end Sys2Proof.Machine
end

