-- ==== Sys2Proof/Machine/Color.lean ====
section
/-! DEFINITION. The colour mixer (41_color_mixer.md): SET_COLOR, GET_COLOR, and the time-division loop. -/

namespace Sys2Proof.Machine

/-- Write the colour accumulator and re-derive the holds: R132 "runs after every write of `rgb`". -/
def writeRgb (rgb : Rgb) (s : State) : State := deriveHolds { s with rgb := rgb }

/-- SET_COLOR r, g, b (R130). -/
def execSetColor (r g b : Byte) (s : State) : Host.Outcome State Fault Refusal :=
  .next (whenStarted ackByte (fun s => reply ackByte (writeRgb ⟨r, g, b⟩ s)) s)

/-- GET_COLOR (R131); answered before INIT too (R151). -/
def execGetColor (s : State) : Host.Outcome State Fault Refusal :=
  .next (replyData s.rgb.bytes s)

/-- LoopRGB (R133): visit red, green and blue, and hold each for its time. -/
def loopRGB (s : State) : State :=
  let s := holdFor s.hold.r (setIndex s.cfg.idxRed s)
  let s := holdFor s.hold.g (setIndex s.cfg.idxGreen s)
  holdFor s.hold.b (setIndex s.cfg.idxBlue s)

end Sys2Proof.Machine
end

