-- ==== Sys2Proof/Machine/ModeEngine.lean ====
section
/-! DEFINITION. Initialisation, the mode register and power (42_mode_engine.md R150 to R172). -/

namespace Sys2Proof.Machine

/-- INIT startPowered (R150). "A second INIT does nothing" but reply. -/
def execInit (p0 : Byte) (s : State) : Host.Outcome State Fault Refusal :=
  .next (
    if s.started then reply ackByte s
    else
      let s := recompute (setStarted s)
      let s := { s with lastT := s.nowMs }
      if startPowered p0 then reply ackByte (resync (setPowered true s))
      else reply ackByte (drive .lo (setPowered false s)))

/-- The forced resync on leaving USER, then the unpowered line restored LOW (R152). -/
def leaveUser (new : Mode) (s : State) : State :=
  if s.mode = .user ∧ new ≠ .user then unpoweredRestore (resync s) else s

/-- SET_MODE id (R152): an unrecognised id fails and changes nothing. -/
def execSetMode (id : Byte) (s : State) : Host.Outcome State Fault Refusal :=
  .next (whenStarted failByte (fun s =>
    match Mode.ofId id with
    | none => reply failByte s
    | some new => reply ackByte { leaveUser new s with mode := new }) s)

/-- GET_MODE (R153); answered before INIT too (R151). -/
def execGetMode (s : State) : Host.Outcome State Fault Refusal :=
  .next (replyData [s.mode.id] s)

/-- TURN_ON (R170): from off, power up and resync; already on, nothing happens. -/
def execTurnOn (s : State) : Host.Outcome State Fault Refusal :=
  .next (whenStarted ackByte (fun s =>
    if s.powered then reply ackByte s else reply ackByte (resync (setPowered true s))) s)

/-- TURN_OFF (R171): from on, power down and drive the line LOW at once; already off, nothing happens. -/
def execTurnOff (s : State) : Host.Outcome State Fault Refusal :=
  .next (whenStarted ackByte (fun s =>
    if s.powered then reply ackByte (drive .lo (setPowered false s)) else reply ackByte s) s)

/-- IS_ON (R172); answered before INIT too (R151). -/
def execIsOn (s : State) : Host.Outcome State Fault Refusal :=
  .next (replyData [boolByte s.powered] s)

end Sys2Proof.Machine
end

