-- ==== Sys2Proof/Machine/Pulse.lean ====
section
/-! DEFINITION. The raw pulse command (40_pulse_encoder.md R114, R115). -/

namespace Sys2Proof.Machine

/-- SEND_PULSE count, widthMicros (R114): "silently ignored" outside USER mode. -/
def execSendPulse (count : Byte) (widthMicros : Half) (s : State) : Host.Outcome State Fault Refusal :=
  .next (whenStarted ackByte (fun s =>
    if s.mode = .user then
      reply ackByte (unpoweredRestore (pulseTrain count.toNat widthMicros.toNat s))
    else reply ackByte s) s)

end Sys2Proof.Machine
end

