-- ==== Sys2Proof/Machine/Speed.lean ====
section
/-! DEFINITION. The speed commands (45_speed_model.md R212, R213). -/

namespace Sys2Proof.Machine

/-- SET_SPEED value (R212). It does not write `rgb`, `jumpIdx` or `lastT`. -/
def execSetSpeed (value : Byte) (s : State) : Host.Outcome State Fault Refusal :=
  .next (whenStarted ackByte (fun s => reply ackByte (recompute { s with speed := value })) s)

/-- GET_SPEED (R213); answered before INIT too (R151). -/
def execGetSpeed (s : State) : Host.Outcome State Fault Refusal :=
  .next (replyData [s.speed] s)

end Sys2Proof.Machine
end

