-- ==== Sys2Proof/Machine/Dispatch.lean ====
section
/-! DEFINITION. One arm per command. -/

namespace Sys2Proof.Machine

def exec (i : Instr) (s : State) : Host.Outcome State Fault Refusal :=
  match i with
  | .init p0 => Sys2Proof.Machine.execInit p0 s
  | .setColor r g b => Sys2Proof.Machine.execSetColor r g b s
  | .getColor => Sys2Proof.Machine.execGetColor s
  | .setMode id => Sys2Proof.Machine.execSetMode id s
  | .getMode => Sys2Proof.Machine.execGetMode s
  | .startAsync => Sys2Proof.Machine.execStartAsync s
  | .stopAsync => Sys2Proof.Machine.execStopAsync s
  | .isAsync => Sys2Proof.Machine.execIsAsync s
  | .setSpeed value => Sys2Proof.Machine.execSetSpeed value s
  | .getSpeed => Sys2Proof.Machine.execGetSpeed s
  | .turnOn => Sys2Proof.Machine.execTurnOn s
  | .turnOff => Sys2Proof.Machine.execTurnOff s
  | .isOn => Sys2Proof.Machine.execIsOn s
  | .sendPulse count widthMicros => Sys2Proof.Machine.execSendPulse count widthMicros s

end Sys2Proof.Machine
end

