-- ==== Sys2Proof/Machine/Fade.lean ====
section
/-! DEFINITION. The fade walker and the jump step (44_fade_walker.md R190 to R196). -/

namespace Sys2Proof.Machine

/-! ## The hue hexagon -/

/-- The hexagon as a set, `H`: some channel is 255 and some channel is 0 (R191). -/
def onHexagon (c : Rgb) : Bool :=
  (c.r == 255 || c.g == 255 || c.b == 255) && (c.r == 0 || c.g == 0 || c.b == 0)

/-- The guard of segment `k` (R191, the table's rows 0 to 5). -/
def segmentGuard (k : Fin 6) (c : Rgb) : Bool :=
  match k with
  | 0 => c.r == 255 && c.b == 0 && decide (c.g < 255)
  | 1 => c.g == 255 && c.b == 0 && decide (c.r > 0)
  | 2 => c.g == 255 && c.r == 0 && decide (c.b < 255)
  | 3 => c.b == 255 && c.r == 0 && decide (c.g > 0)
  | 4 => c.b == 255 && c.g == 0 && decide (c.r < 255)
  | 5 => c.r == 255 && c.g == 0 && decide (c.b > 0)

/-- `sat(v + s)`. -/
def satUp (v : Byte) (s : Nat) : Byte := sat (v.toNat + s)

/-- `sat(v − s)`. -/
def satDown (v : Byte) (s : Nat) : Byte := sat (v.toNat - s)

/-- The step of segment `k` (R191). -/
def segmentStep (k : Fin 6) (s : Nat) (c : Rgb) : Rgb :=
  match k with
  | 0 => { c with g := satUp c.g s }
  | 1 => { c with r := satDown c.r s }
  | 2 => { c with b := satUp c.b s }
  | 3 => { c with g := satDown c.g s }
  | 4 => { c with r := satUp c.r s }
  | 5 => { c with b := satDown c.b s }

/-! ## Recovery -/

/-- The three channels. -/
inductive Channel
  | r | g | b
deriving DecidableEq, Repr

/-- The value of a channel. -/
def Rgb.get (c : Rgb) : Channel → Byte
  | .r => c.r
  | .g => c.g
  | .b => c.b

/-- The colour with one channel written. -/
def Rgb.set (c : Rgb) (ch : Channel) (v : Byte) : Rgb :=
  match ch with
  | .r => { c with r := v }
  | .g => { c with g := v }
  | .b => { c with b := v }

/-- The first channel in the order r, g, b whose value is the maximum (R193). -/
def highest (c : Rgb) : Channel :=
  if c.r ≥ c.g ∧ c.r ≥ c.b then .r
  else if c.g ≥ c.b then .g
  else .b

/-- The last channel in the order r, g, b whose value is the minimum (R193). -/
def lowest (c : Rgb) : Channel :=
  if c.b ≤ c.r ∧ c.b ≤ c.g then .b
  else if c.g ≤ c.r then .g
  else .r

/-- Recover (R193): decrement the lowest channel, increment the highest. -/
def recover (s : Nat) (c : Rgb) : Rgb :=
  let hi := highest c
  let lo := lowest c
  let c := c.set lo (satDown (c.get lo) s)
  c.set hi (satUp (c.get hi) s)

/-! ## The two advances -/

/-- The colour after one FadeStep of size `s` (R190): the first segment whose guard holds, else recovery. -/
def fadeRgb (s : Nat) (c : Rgb) : Rgb :=
  if segmentGuard 0 c then segmentStep 0 s c
  else if segmentGuard 1 c then segmentStep 1 s c
  else if segmentGuard 2 c then segmentStep 2 s c
  else if segmentGuard 3 c then segmentStep 3 s c
  else if segmentGuard 4 c then segmentStep 4 s c
  else if segmentGuard 5 c then segmentStep 5 s c
  else recover s c

/-- FadeStep (R190). -/
def fadeStep (s : State) : State := writeRgb (fadeRgb s.cfg.fadeStep s.rgb) s

/-- `VERTEX` of R196: red, yellow, green, cyan, blue, magenta. -/
def vertex (k : Fin 6) : Rgb :=
  match k with
  | 0 => ⟨255, 0, 0⟩
  | 1 => ⟨255, 255, 0⟩
  | 2 => ⟨0, 255, 0⟩
  | 3 => ⟨0, 255, 255⟩
  | 4 => ⟨0, 0, 255⟩
  | 5 => ⟨255, 0, 255⟩

/-- JumpStep (R195): `jumpIdx` advances by one modulo 6 and the colour is that hue state's. -/
def jumpStep (s : State) : State :=
  let s := { s with jumpIdx := s.jumpIdx + 1 }
  writeRgb (vertex s.jumpIdx) s

end Sys2Proof.Machine
end

