-- ==== Sys2Proof/Machine/Tick.lean ====
section
/-! DEFINITION. The sequencer's tick (42_mode_engine.md R160). -/

namespace Sys2Proof.Machine

/-- `(now − S.lastT) mod 2^32` (10_state.md R33). -/
def elapsed (now : Time) (s : State) : Nat := (now - s.lastT).toNat

/-- Advance at most once when the interval has elapsed, and stamp `lastT` (R160). -/
def advanceAfter (interval since : Nat) (now : Time) (advance : State → State) (s : State) : State :=
  if interval ≤ since then { advance s with lastT := now } else s

/-- Tick(now) (R160). -/
def tick (now : Time) (s : State) : State :=
  if s.started then
    if s.powered then
      match s.mode with
      | .user => s
      | .solid => loopRGB s
      | .jump => advanceAfter s.jumpMs (elapsed now s) now jumpStep (loopRGB s)
      | .fade => advanceAfter s.msPerDeg (elapsed now s) now fadeStep (loopRGB s)
    else drive .lo s
  else s

end Sys2Proof.Machine
end

