-- ==== Sys2Proof/Machine/Port.lean ====
section
/-! DEFINITION. The command port: frame assembly and timeout (30_encoding.md R84 to R89), RST (70_reset_and_hazards.md
R250), and the frame-level inputs of a command program (R88, R92). -/

namespace Sys2Proof.Machine

/-! ## The port -/

/-- The timeout condition of R86 at clock time `t`: `(t − t0) mod 2^32 ≥ T_CMD_TIMEOUT_MS` while collecting. -/
def expired (t : Time) (s : State) : Bool :=
  match s.parser with
  | .idle => false
  | .collect _ _ t0 => decide (s.cfg.tCmdTimeoutMs ≤ (t - t0).toNat)

/-- The timeout step (R86): one failure reply, the parser to Idle, nothing else. -/
def timeoutAbort (s : State) : State := reply failByte { s with parser := .idle }

/-- The command step of a complete frame (R84, R85); the parser is Idle after it. -/
def runFrame (op : Opcode) (ps : List Byte) (s : State) : Host.Outcome State Fault Refusal :=
  exec (assemble op ps) { s with parser := .idle }

/-- A byte taken while Idle (R84), or an illegal opcode byte (R87). -/
def idleByte (b : Byte) (t : Time) (s : State) : Host.Outcome State Fault Refusal :=
  match Opcode.ofByte b with
  | none => .next (reply failByte s)
  | some op => if op.paramCount = 0 then runFrame op [] s else .next { s with parser := .collect op [] t }

/-- A parameter byte taken in time while collecting (R85). -/
def paramByteArrives (op : Opcode) (got : List Byte) (b : Byte) (t : Time) (s : State) :
    Host.Outcome State Fault Refusal :=
  let got' := got ++ [b]
  if got'.length = op.paramCount then runFrame op got' s else .next { s with parser := .collect op got' t }

/-- A byte that arrived at `t` is taken from CMD_IN, before its time is out. -/
def portByte (b : Byte) (t : Time) (s : State) : Host.Outcome State Fault Refusal :=
  match s.parser with
  | .idle => idleByte b t s
  | .collect op got _ => paramByteArrives op got b t s

/-- The next input is the byte `b`. If the frame being collected was out of time when the byte arrived, the timeout
step comes first and the byte waits: it "is a new opcode byte" (R86; Log 6). -/
def byteStep (b : Byte) (arrival now : Time) (rest : List Input) (s : State) : Host.Outcome State Fault Refusal :=
  if expired arrival s then .next (timeoutAbort s)
  else portByte b arrival { s with inputs := rest, nowMs := now }

/-- The clock reads `t` and no byte has arrived (R86). -/
def pollStep (t : Time) (rest : List Input) (s : State) : State :=
  let s := { s with inputs := rest, nowMs := t }
  if expired t s then timeoutAbort s else s

/-- The sequencer ticks with the sample `now` (R64, R160). -/
def tickStep (now : Time) (rest : List Input) (s : State) : State :=
  tick now { s with inputs := rest, nowMs := now }

/-- RST between steps (R250): every register, the trace and the reply stream take their values of R38. The
configuration, the inputs to come, the clock and the draw counter are not the block's registers (Log 7). -/
def rstStep (rest : List Input) (s : State) : State :=
  { State.resetWith s.cfg with inputs := rest, nowMs := s.nowMs, draws := s.draws }

/-- No input is scheduled: "Ticks are offered forever" (R161). The clock is a free draw, and a frame that is out of
time at it is aborted first (R86; Log 4). -/
def unscheduledStep (s : State) : State :=
  let now := Config.freeNowMs s.draws
  let s := { s with nowMs := now, draws := s.draws + 1 }
  if expired now s then timeoutAbort s else tick now s

/-! ## Placing a frame -/

/-- `s` with the frame `bytes` placed so that the next step takes its last byte and runs it: the bytes before it are
already collected. An illegal opcode byte is placed alone. DESIGN CHOICE: every byte is placed at the state's own `nowMs`,
as its arrival time and as the NOW_MS that the next step samples, so a placed INIT stamps `lastT` with `s.nowMs`; the spec
makes that sample a free draw (R226, 93 I10; Log 17). -/
def placeFrame (bytes : List Byte) (s : State) : State :=
  match bytes with
  | [] => s
  | b :: rest =>
    match Opcode.ofByte b with
    | none => { s with parser := .idle, inputs := .byte b s.nowMs s.nowMs :: s.inputs }
    | some op =>
      match (rest.take op.paramCount).reverse with
      | [] => { s with parser := .idle, inputs := .byte b s.nowMs s.nowMs :: s.inputs }
      | last :: before =>
        { s with parser := .collect op before.reverse s.nowMs, inputs := .byte last s.nowMs s.nowMs :: s.inputs }

/-! ## Command programs -/

/-- The bytes `bs` arriving at the times `ts`, each a pair (arrival, NOW_MS sampled by the step that takes it). -/
def byteInputs (bs : List Byte) (ts : List (Time × Time)) : List Input :=
  List.zipWith (fun b t => .byte b t.1 t.2) bs ts

/-- Consecutive arrivals are less than the timeout apart: "within `T_CMD_TIMEOUT_MS` of the previous byte" (R257). -/
def paced (c : Config) : List (Time × Time) → Bool
  | [] => true
  | [_] => true
  | t :: u :: ts => decide ((u.1 - t.1).toNat < c.tCmdTimeoutMs) && paced c (u :: ts)

/-- The inputs of a statement of R92 when everything happens at clock time `now`. A truncated frame is followed by
silence of `T_CMD_TIMEOUT_MS`. -/
def stmtInputs (c : Config) (now : Time) : Stmt → List Input
  | .command i => (encode i).map fun b => .byte b now now
  | .tick t => [.tick t]
  | .trunc op got =>
    (op.byte :: got).map (fun b => .byte b now now) ++ [.poll (now + BitVec.ofNat 32 c.tCmdTimeoutMs)]
  | .byte b => [.byte b now now]

/-- The frame-level view of a statement (R88): a complete frame runs its command; a truncated frame and an unknown
byte each get the failure reply; a tick ticks. -/
def runStmt (st : Stmt) (s : State) : Host.Outcome State Fault Refusal :=
  match st with
  | .command i => exec i s
  | .tick t => .next (tick t s)
  | .trunc _ _ => .next (reply failByte s)
  | .byte _ => .next (reply failByte s)

end Sys2Proof.Machine
end

