-- ==== Sys2Proof/Machine/Step.lean ====
section
/-! DEFINITION. One step of the machine: it takes the next input (20_memory.md R64), or ticks when none is scheduled. -/

namespace Sys2Proof.Machine

/-- One atomic step (R64). A configuration outside R6 is refused (00_scope.md R7). -/
def step (s : State) : Host.Outcome State Fault Refusal :=
  if s.cfg.Valid then
    match s.inputs with
    | [] => .next (unscheduledStep s)
    | .byte b arrival now :: rest => byteStep b arrival now rest s
    | .poll t :: rest => .next (pollStep t rest s)
    | .tick now :: rest => .next (tickStep now rest s)
    | .rst :: rest => .next (rstStep rest s)
  else .refused .configOutOfRange

/-- `s` with the instruction whose bits are `w` placed as the frame that the very next step runs (Log 2), at the
clock value `s.nowMs` (Log 17). -/
def State.withFetchWord (s : State) (nbits w : Nat) : State := placeFrame (tableBytes nbits w) s

end Sys2Proof.Machine
end

