-- ==== Sys2Proof/Safety.lean ====
section
/-! DEFINITION. What statements about the machine are said in: finite runs (60_exceptions.md R232), the invariants of
10_state.md R40, the line events of the pulse encoder, the busy time of 70_reset_and_hazards.md R260, and an ideal
receiver (40_pulse_encoder.md R111). -/

namespace Sys2Proof.Machine

/-! ## Runs -/

/-- `n` steps, stopping at the first fault or refusal. -/
def runSteps : Nat → State → Host.Outcome State Fault Refusal
  | 0, s => .next s
  | n + 1, s =>
    match step s with
    | .next t => runSteps n t
    | .fault r => .fault r
    | .refused r => .refused r

/-- Ticks at the given clock samples, one after another. -/
def ticks (nows : List Time) (s : State) : State := nows.foldl (fun s now => tick now s) s

/-! ## Line events -/

/-- The events of `n` pulses of width `w` (R110): `LO, Hold(w), HI`, with no hold between pulses. -/
def pulses (n w : Nat) : List LineEvent := (List.replicate n [.lo, .hold w, .hi]).flatten

/-- The events of a resync (R112). -/
def resyncEvents (c : Config) : List LineEvent := [.lo, .hold c.tResetLowUs, .hi, .hold c.tResetHighUs]

/-- The events of UnpoweredRestore (R116). -/
def restoreEvents (powered : Bool) : List LineEvent := if powered then [] else [.lo]

/-- The busy time of a step: "the sum `Σd` of the `Hold(d)` events it appends" (R260). -/
def busyTime : List LineEvent → Nat
  | [] => 0
  | .hold d :: evs => d + busyTime evs
  | .lo :: evs => busyTime evs
  | .hi :: evs => busyTime evs

/-- From `s` to `t` the trace grew by events whose holds sum to `d` µs. -/
def Busy (s t : State) (d : Nat) : Prop := ∃ evs, t.trace = s.trace ++ evs ∧ busyTime evs = d

/-- An ideal receiver in state `x` that hears `evs`: a LOW hold below `T_RESET_LOW_US` advances one state, a longer one
resets to state 0 (R111). The receivers of R111 have thresholds the spec does not give; this one counts every pulse
the block can send. -/
def receiverAfter (c : Config) : Index → List LineEvent → Index
  | x, [] => x
  | x, .lo :: .hold w :: .hi :: evs => receiverAfter c (if w < c.tResetLowUs then x + 1 else 0) evs
  | x, _ :: evs => receiverAfter c x evs

/-! ## Channels -/

/-- The place of a channel in the order r, g, b of R193. -/
def Channel.rank : Channel → Nat
  | .r => 0
  | .g => 1
  | .b => 2

/-- `ceil(255 / s)`, the steps of size `s` that cross a channel's range (R193, R194). -/
def crossing (s : Nat) : Nat := (255 + s - 1) / s

/-! ## Replies -/

/-- The reply of a command other than INIT while `started = 0` (R151's table). -/
def replyBeforeInit (i : Instr) (s : State) : List Byte :=
  match i with
  | .setMode _ => [0x00]
  | .getColor => [0xFF, s.rgb.r, s.rgb.g, s.rgb.b]
  | .getMode => [0xFF, s.mode.id]
  | .isAsync => [0xFF, boolByte s.async]
  | .getSpeed => [0xFF, s.speed]
  | .isOn => [0xFF, boolByte s.powered]
  | .init _ | .setColor _ _ _ | .startAsync | .stopAsync | .setSpeed _ | .turnOn | .turnOff | .sendPulse _ _ => [0xFF]

/-- How many data bytes a successful reply carries (R82's reply column). -/
def replyDataCount : Instr → Nat
  | .getColor => 3
  | .getMode | .isAsync | .getSpeed | .isOn => 1
  | .init _ | .setColor _ _ _ | .setMode _ | .startAsync | .stopAsync | .setSpeed _ | .turnOn | .turnOff
  | .sendPulse _ _ => 0

/-! ## Invariants -/

/-- The bytes the port has taken of the frame it is collecting, opcode byte first. -/
def Parser.bytes : Parser → List Byte
  | .idle => []
  | .collect op got _ => op.byte :: got

/-- `got` is "shorter than the frame needs" (R36). -/
def Parser.wf : Parser → Prop
  | .idle => True
  | .collect op got _ => got.length < op.paramCount

/-- The level of the line between two steps: undriven before INIT (R34), HIGH while on and LOW while off (R230). -/
def idleLine (started powered : Bool) : Line :=
  if started then (if powered then .hi else .lo) else .z

/-- The registers that INIT alone can move from their reset values (R151). -/
def untouched (s : State) : Prop :=
  s.powered = false ∧ s.async = false ∧ s.mode = .solid ∧ s.idx = 0 ∧ s.rgb = ⟨0, 0, 0⟩ ∧ s.speed = 0 ∧
  s.jumpIdx = 0 ∧ s.lastT = 0 ∧ s.trace = []

/-- What holds between any two steps (R40 and the rules it lists). -/
structure StateInv (s : State) : Prop where
  /-- The configuration meets R6. -/
  cfg_valid : s.cfg.Valid
  /-- R29. -/
  hold_derived : s.hold = holdsOf s.cfg s.rgb
  /-- R31. -/
  rate_derived : s.rate = rateOf s.cfg s.speed
  /-- R31. -/
  msPerDeg_derived : s.msPerDeg = msPerDegOf s.cfg s.speed
  /-- R31. -/
  jumpMs_derived : s.jumpMs = jumpMsOf s.cfg s.speed
  /-- R36. -/
  parser_wf : s.parser.wf
  /-- R34, R116, R230. -/
  line_idle : s.line = idleLine s.started s.powered
  /-- R151. -/
  before_init : s.started = false → untouched s

/-! ## Command programs -/

/-- The clock value the last step of a statement's inputs samples (see `stmtInputs`). -/
def stmtClock (c : Config) (now : Time) : Stmt → Time
  | .tick t => t
  | .trunc _ _ => now + BitVec.ofNat 32 c.tCmdTimeoutMs
  | .command _ | .byte _ => now

end Sys2Proof.Machine
end

