-- ==== Sys2Proof/Certificates/Slice0/Obligations.lean ====
section
/-! DEFINITION. The statements for the provers. Each docstring names the rule of spec/ it formalises. A statement of a
command's result gives the whole next state as an update of the old one, so every field it does not list is unchanged:
the equality is the result, the frame and the completion at once. -/

open Sys2Proof Sys2Proof.Machine

/-! ## Encoding (30_encoding.md) -/

/-- One frame of each family, written out from R80, R82 and R83, decodes to its command. -/
def Obligations.WrittenFramesDecode : Prop :=
  decode [0x01, 0x07] = .ok (.init 7, []) ∧
  decode [0x10, 0x0A, 0x14, 0x1E] = .ok (.setColor 10 20 30, []) ∧
  decode [0x20, 0x02] = .ok (.setMode 2, []) ∧
  decode [0x30] = .ok (.startAsync, []) ∧
  decode [0x40, 0xFF] = .ok (.setSpeed 255, []) ∧
  decode [0x51] = .ok (.turnOff, []) ∧
  decode [0x60, 0x03, 0x01, 0xF4] = .ok (.sendPulse 3 500, [])

/-- The encoding of every command, followed by any bytes, decodes to that command and leaves those bytes. -/
def Obligations.DecodeInvertsEncode : Prop :=
  ∀ (i : Instr) (rest : List Byte), decode (encode i ++ rest) = .ok (i, rest)

/-- Whatever decodes to a command begins with exactly that command's encoding: a frame has one meaning. -/
def Obligations.EncodeInvertsDecode : Prop :=
  ∀ (bs : List Byte) (i : Instr) (rest : List Byte), decode bs = .ok (i, rest) → bs = encode i ++ rest

/-- R87. The illegal opcode bytes are the listed 242; one received while Idle gets the reply 00, changes no register,
and no byte after it is consumed. -/
def Obligations.IllegalOpcodeFails : Prop :=
  (∀ b : Byte, Opcode.ofByte b = none ↔
    b.toNat = 0 ∨ (0x02 ≤ b.toNat ∧ b.toNat ≤ 0x0F) ∨ (0x12 ≤ b.toNat ∧ b.toNat ≤ 0x1F) ∨
    (0x22 ≤ b.toNat ∧ b.toNat ≤ 0x2F) ∨ (0x33 ≤ b.toNat ∧ b.toNat ≤ 0x3F) ∨
    (0x42 ≤ b.toNat ∧ b.toNat ≤ 0x4F) ∨ (0x53 ≤ b.toNat ∧ b.toNat ≤ 0x5F) ∨ 0x61 ≤ b.toNat) ∧
  ((List.range 256).filter fun n => (Opcode.ofByte (BitVec.ofNat 8 n)).isNone).length = 242 ∧
  ∀ (s : State) (b : Byte) (t now : Time) (rest : List Input),
    s.cfg.Valid → s.inputs = .byte b t now :: rest → s.parser = .idle → Opcode.ofByte b = none →
    step s = .next { s with inputs := rest, nowMs := now, rsp := s.rsp ++ [0x00] }

/-- R89. The opcode byte alone fixes the number of parameter bytes, 0, 1 or 3; parameter values never affect it. -/
def Obligations.FrameLengthFromOpcode : Prop :=
  (∀ op : Opcode, op.paramCount =
    if op = .init ∨ op = .setMode ∨ op = .setSpeed then 1
    else if op = .setColor ∨ op = .sendPulse then 3 else 0) ∧
  (∀ (op : Opcode) (ps rest : List Byte), ps.length = op.paramCount →
    ∃ i, i.opcode = op ∧ decode (op.byte :: ps ++ rest) = .ok (i, rest)) ∧
  (∀ (op : Opcode) (got : List Byte), got.length < op.paramCount →
    decode (op.byte :: got) = .error (.truncated op got)) ∧
  (∀ (b : Byte) (rest : List Byte), Opcode.ofByte b = none → decode (b :: rest) = .error (.illegalOpcode b))

/-- R83. The operands of each command that has any, from its parameter bytes. -/
def Obligations.OperandsFromParameterBytes : Prop :=
  ∀ (p0 p1 p2 : Byte) (rest : List Byte),
    decode (0x01 :: p0 :: rest) = .ok (.init p0, rest) ∧
    (startPowered p0 = true ↔ p0 ≠ 0) ∧
    decode (0x10 :: p0 :: p1 :: p2 :: rest) = .ok (.setColor p0 p1 p2, rest) ∧
    decode (0x20 :: p0 :: rest) = .ok (.setMode p0, rest) ∧
    decode (0x40 :: p0 :: rest) = .ok (.setSpeed p0, rest) ∧
    ∃ w : Half, decode (0x60 :: p0 :: p1 :: p2 :: rest) = .ok (.sendPulse p0 w, rest) ∧
      w.toNat = p1.toNat * 256 + p2.toNat

/-! ## The port and the step (30_encoding.md R84 to R88, 20_memory.md R64) -/

/-- When the bytes already collected and the byte that arrives in time decode to a whole command, the step is `exec` of
that command, on the state with the byte taken, NOW_MS sampled and the parser Idle. When the frame was out of time as the
byte arrived, the step is the abort of R86 and the byte is still there, to be read as a new opcode byte (that the abort
is a step of its own before the byte is the model's reading, notes/assumptions/6.md). -/
def Obligations.StepRunsDecodedCommand : Prop :=
  ∀ (s : State) (b : Byte) (arrival now : Time) (rest : List Input) (i : Instr),
    s.cfg.Valid → s.inputs = .byte b arrival now :: rest →
    (expired arrival s = false → decode (s.parser.bytes ++ [b]) = .ok (i, []) →
      step s = exec i { s with inputs := rest, nowMs := now, parser := .idle }) ∧
    (expired arrival s = true → step s = .next { s with parser := .idle, rsp := s.rsp ++ [0x00] })

/-- R84. A byte received while the parser is Idle. -/
def Obligations.ByteWhileIdle : Prop :=
  ∀ (s : State) (b : Byte) (t now : Time) (rest : List Input),
    s.cfg.Valid → s.inputs = .byte b t now :: rest → s.parser = .idle →
    (Opcode.ofByte b = none →
      step s = .next { s with inputs := rest, nowMs := now, rsp := s.rsp ++ [0x00] }) ∧
    (∀ op, Opcode.ofByte b = some op → op.paramCount = 0 →
      ∃ i, decode [b] = .ok (i, []) ∧ step s = exec i { s with inputs := rest, nowMs := now }) ∧
    (∀ op, Opcode.ofByte b = some op → op.paramCount ≠ 0 →
      step s = .next { s with inputs := rest, nowMs := now, parser := .collect op [] t })

/-- R85. A byte received in time while a frame is being collected. -/
def Obligations.ByteWhileCollecting : Prop :=
  ∀ (s : State) (op : Opcode) (got : List Byte) (t0 t now : Time) (b : Byte) (rest : List Input),
    s.cfg.Valid → s.inputs = .byte b t now :: rest → s.parser = .collect op got t0 →
    (t - t0).toNat < s.cfg.tCmdTimeoutMs →
    (got.length + 1 = op.paramCount →
      ∃ i, decode (op.byte :: got ++ [b]) = .ok (i, []) ∧
        step s = exec i { s with inputs := rest, nowMs := now, parser := .idle }) ∧
    (got.length + 1 ≠ op.paramCount →
      step s = .next { s with inputs := rest, nowMs := now, parser := .collect op (got ++ [b]) t })

/-- R86. The timeout abort: one failure reply, the parser to Idle, nothing else; a byte after it is read as an opcode
byte. Before the time is out, a look at the clock changes nothing. -/
def Obligations.TimeoutAborts : Prop :=
  ∀ (s : State) (op : Opcode) (got : List Byte) (t0 t : Time) (rest : List Input),
    s.cfg.Valid → s.parser = .collect op got t0 →
    (s.cfg.tCmdTimeoutMs ≤ (t - t0).toNat → s.inputs = .poll t :: rest →
      ∃ u, u = { s with inputs := rest, nowMs := t, parser := .idle, rsp := s.rsp ++ [0x00] } ∧ step s = .next u ∧
        ∀ b t' now rest', rest = .byte b t' now :: rest' →
          (Opcode.ofByte b = none →
            step u = .next { u with inputs := rest', nowMs := now, rsp := u.rsp ++ [0x00] }) ∧
          (∀ i, decode [b] = .ok (i, []) → step u = exec i { u with inputs := rest', nowMs := now }) ∧
          (∀ op', Opcode.ofByte b = some op' → op'.paramCount ≠ 0 →
            step u = .next { u with inputs := rest', nowMs := now, parser := .collect op' [] t' })) ∧
    ((t - t0).toNat < s.cfg.tCmdTimeoutMs → s.inputs = .poll t :: rest →
      step s = .next { s with inputs := rest, nowMs := t })

/-- The bytes of a command's frame, arriving at any times less than the timeout apart (R257), run that command, as one
command step at the NOW_MS sampled with the last byte: the byte-level port refines the frame-level view. -/
def Obligations.PacedFrameRunsItsCommand : Prop :=
  ∀ (i : Instr) (ts : List (Time × Time)) (rest : List Input) (s : State),
    s.cfg.Valid → s.parser = .idle → ts.length = (encode i).length → paced s.cfg ts = true →
    runSteps ts.length { s with inputs := byteInputs (encode i) ts ++ rest } =
      exec i { s with inputs := rest, nowMs := (ts.getLast?.map Prod.snd).getD s.nowMs }

/-- Steps over whole inputs (a complete frame, a truncated frame and its silence, an unknown byte; and a tick) give the
same replies and state changes as the byte-level rules, here with every byte of a statement at one clock time and the
shortest silence that ends it. The spec's sentence, its own inference: "The replies and state changes are then exactly
those of rules R84 to R87" (R88). -/
def Obligations.FrameLevelViewAgrees : Prop :=
  ∀ (st : Stmt) (now : Time) (rest : List Input) (s : State),
    st.wellFormed = true → s.cfg.Valid → s.cfg.tCmdTimeoutMs < 2 ^ 32 → s.parser = .idle →
    runSteps (stmtInputs s.cfg now st).length { s with inputs := stmtInputs s.cfg now st ++ rest } =
      runStmt st { s with inputs := rest, nowMs := stmtClock s.cfg now st }

/-- A tick input is one step that runs Tick with its clock sample; a partial frame does not stop it, and its sample does
not abort that frame (the model's choice, notes/assumptions/5.md). -/
def Obligations.StepRunsTick : Prop :=
  ∀ (s : State) (now : Time) (rest : List Input), s.cfg.Valid → s.inputs = .tick now :: rest →
    step s = .next (tick now { s with inputs := rest, nowMs := now })

/-! ## Reset, configuration, and the end of runs -/

/-- R250. RST sets every register to its value of R38; after it, only INIT has an effect. -/
def Obligations.RstRestoresResetValues : Prop :=
  ∀ (s : State) (rest : List Input), s.cfg.Valid → s.inputs = .rst :: rest →
    ∃ t, step s = .next t ∧
      (t.started = false ∧ t.powered = false ∧ t.async = false ∧ t.mode = .solid ∧ t.idx = 0 ∧ t.rgb = ⟨0, 0, 0⟩ ∧
        t.hold = ⟨0, 0, 0⟩ ∧ t.speed = 0 ∧ t.jumpIdx = 0 ∧ t.lastT = 0 ∧ t.line = .z ∧ t.trace = [] ∧
        t.parser = .idle ∧ t.rsp = []) ∧
      (t.rate = rateOf s.cfg 0 ∧ t.msPerDeg = msPerDegOf s.cfg 0 ∧ t.jumpMs = jumpMsOf s.cfg 0) ∧
      (∀ now, tick now t = t) ∧
      ∀ i : Instr, (∀ p0, i ≠ .init p0) → exec i t = .next { t with rsp := t.rsp ++ replyBeforeInit i t }

/-- The state after RST meets the invariants, in every configuration that meets R6, and so does `State.reset`. RST keeps
what is not the block's register: configuration, inputs to come, clock, draw counter (the model's choice,
notes/assumptions/7.md). -/
def Obligations.ResetMeetsInvariants : Prop :=
  (∀ c : Config, c.Valid → StateInv (State.resetWith c)) ∧ StateInv State.reset ∧
  (∀ (s : State) (rest : List Input), s.cfg.Valid → s.inputs = .rst :: rest →
    ∃ t, step s = .next t ∧ t.cfg = s.cfg ∧ t.inputs = rest ∧ t.nowMs = s.nowMs ∧ t.draws = s.draws)

/-- R7. A configuration outside R6 is refused, one inside R6 is not; and `MAX_RATE > 1000` would make the interval 0. -/
def Obligations.BadConfigurationRefused : Prop :=
  (∀ s : State, ¬ s.cfg.Valid → step s = .refused .configOutOfRange) ∧
  (∀ s : State, s.cfg.Valid → ∀ r, step s ≠ .refused r) ∧
  (∀ c : Config, 1000 < c.maxRate → c.minRate ≤ c.maxRate → msPerDegOf c 255 = 0)

/-- Nothing ends a run: from every state of a valid configuration, every number of steps answers a next state.
With nothing scheduled and no frame begun, the sequencer still ticks (the form of that step is the model's choice,
notes/assumptions/4.md). -/
def Obligations.SequencerNeverHalts : Prop :=
  (∀ (n : Nat) (s : State), s.cfg.Valid → ∃ t, runSteps n s = .next t) ∧
  (∀ s : State, s.cfg.Valid → s.inputs = [] → s.parser = .idle →
    ∃ now, step s = .next (tick now { s with nowMs := now, draws := s.draws + 1 }))

/-- R151. Before INIT every other command writes no register, appends no trace event and replies as the table says, and
Tick does nothing. -/
def Obligations.CommandsBeforeInit : Prop :=
  ∀ (i : Instr) (s : State), s.started = false →
    ((∀ p0, i ≠ .init p0) → exec i s = .next { s with rsp := s.rsp ++ replyBeforeInit i s }) ∧
    ∀ now, tick now s = s

/-! ## Pulse encoder (40_pulse_encoder.md) -/

/-- R110. PulseTrain: its events, the lock-step index, the level it leaves, and nothing else. -/
def Obligations.PulseTrainEffect : Prop :=
  ∀ (n w : Nat) (s : State),
    (pulseTrain n w s).trace = s.trace ++ (List.replicate n [LineEvent.lo, .hold w, .hi]).flatten ∧
    (pulseTrain n w s).idx.toNat = (s.idx.toNat + n) % 8 ∧
    (pulseTrain n w s).line = (if n = 0 then s.line else .hi) ∧
    ∃ x l evs, pulseTrain n w s = { s with idx := x, line := l, trace := evs }

/-- R112. Resync: its four events, the LOW hold above one second, `idx` 0, the line HIGH, and nothing else. -/
def Obligations.ResyncEffect : Prop :=
  ∀ s : State,
    (resync s).trace = s.trace ++ [.lo, .hold s.cfg.tResetLowUs, .hi, .hold s.cfg.tResetHighUs] ∧
    (s.cfg.Valid → 1000000 < s.cfg.tResetLowUs) ∧
    (resync s).idx = 0 ∧ (resync s).line = .hi ∧
    ∃ x l evs, resync s = { s with idx := x, line := l, trace := evs }

/-- R113. SetIndex emits exactly `(8 + target − idx) mod 8` pulses, at most 7, none when the target is the index; then
HIGH; and leaves `idx` at the target. -/
def Obligations.SetIndexEffect : Prop :=
  ∀ (target : Index) (s : State), ∃ n, n = (8 + target.toNat - s.idx.toNat) % 8 ∧ n ≤ 7 ∧ (n = 0 ↔ target = s.idx) ∧
    (setIndex target s).trace =
      s.trace ++ (List.replicate n [LineEvent.lo, .hold s.cfg.pulseWidthUs, .hi]).flatten ++ [.hi] ∧
    (setIndex target s).idx = target ∧ (setIndex target s).line = .hi ∧
    ∃ x l evs, setIndex target s = { s with idx := x, line := l, trace := evs }

/-- R114. SEND_PULSE: silently ignored before INIT and outside USER mode; in USER mode a pulse train of the given count
and width, the unpowered line restored LOW, and an ack. -/
def Obligations.SendPulseEffect : Prop :=
  ∀ (count : Byte) (width : Half) (s : State),
    (s.started = false ∨ s.mode ≠ .user →
      exec (.sendPulse count width) s = .next { s with rsp := s.rsp ++ [0xFF] }) ∧
    (s.started = true → s.mode = .user →
      exec (.sendPulse count width) s = .next { s with
        idx := s.idx + BitVec.ofNat 3 count.toNat
        line := if s.powered then (if count.toNat = 0 then s.line else .hi) else .lo
        trace := s.trace ++ pulses count.toNat width.toNat ++ (if s.powered then [] else [.lo])
        rsp := s.rsp ++ [0xFF] })

/-- Outside USER mode, every hold a command or a tick puts on the line is one of the block's own: the pulse
width, a hold of a colour channel, a resync hold, or a sweep width. In USER mode only SEND_PULSE is not bound so. The
spec's sentence, its own inference: "Raw pulse emission happens only in USER mode" (R115). -/
def Obligations.RawPulsesOnlyInUserMode : Prop :=
  (∀ (i : Instr) (s t : State), exec i s = .next t →
    (s.mode = .user → ∀ n w, i ≠ .sendPulse n w) →
    ∃ evs, t.trace = s.trace ++ evs ∧
      ∀ d, LineEvent.hold d ∈ evs → d = s.cfg.tResetLowUs ∨ d = s.cfg.tResetHighUs ∨ d ∈ sweepWidths s.cfg) ∧
  (∀ (now : Time) (s : State), ∃ evs, (tick now s).trace = s.trace ++ evs ∧
    ∀ d, LineEvent.hold d ∈ evs → d = s.cfg.pulseWidthUs ∨ d = s.hold.r ∨ d = s.hold.g ∨ d = s.hold.b)

/-- R116. A command of a started, unpowered block that drives the line (TURN_ON apart, which powers up) leaves it LOW,
with LO its last event; while powered, UnpoweredRestore appends nothing. -/
def Obligations.UnpoweredLineEndsLow : Prop :=
  (∀ s : State, s.powered = true → unpoweredRestore s = s) ∧
  (∀ (i : Instr) (s t : State), s.started = true → s.powered = false → i ≠ .turnOn → exec i s = .next t →
    t.trace ≠ s.trace → t.line = .lo ∧ t.trace.getLast? = some .lo)

/-! ## Colour mixer (41_color_mixer.md) -/

/-- R130. SET_COLOR stores the colour and derives the holds, in every mode, with no line activity. -/
def Obligations.SetColorEffect : Prop :=
  ∀ (r g b : Byte) (s : State),
    (s.started = false → exec (.setColor r g b) s = .next { s with rsp := s.rsp ++ [0xFF] }) ∧
    (s.started = true → exec (.setColor r g b) s = .next { s with
      rgb := ⟨r, g, b⟩
      hold := ⟨r.toNat * s.cfg.holdQuantumUs, g.toNat * s.cfg.holdQuantumUs, b.toNat * s.cfg.holdQuantumUs⟩
      rsp := s.rsp ++ [0xFF] })

/-- R131. GET_COLOR replies the ack and the colour's bytes R, G, B, the big-endian bytes of the packed colour. -/
def Obligations.GetColorReply : Prop :=
  ∀ s : State,
    exec .getColor s = .next { s with rsp := s.rsp ++ [0xFF, s.rgb.r, s.rgb.g, s.rgb.b] } ∧
    s.rgb.packed.toNat = s.rgb.r.toNat * 65536 + s.rgb.g.toNat * 256 + s.rgb.b.toNat

/-- R133. LoopRGB visits red, green and blue, each a SetIndex and then that channel's hold (a zero channel too), and
ends at blue with the line HIGH. -/
def Obligations.LoopRgbEffect : Prop :=
  ∀ s : State, ∃ dR dG dB,
    dR = (8 + s.cfg.idxRed.toNat - s.idx.toNat) % 8 ∧
    dG = (8 + s.cfg.idxGreen.toNat - s.cfg.idxRed.toNat) % 8 ∧
    dB = (8 + s.cfg.idxBlue.toNat - s.cfg.idxGreen.toNat) % 8 ∧
    loopRGB s = { s with
      idx := s.cfg.idxBlue
      line := .hi
      trace := s.trace ++ pulses dR s.cfg.pulseWidthUs ++ [.hi, .hold s.hold.r] ++
        pulses dG s.cfg.pulseWidthUs ++ [.hi, .hold s.hold.g] ++
        pulses dB s.cfg.pulseWidthUs ++ [.hi, .hold s.hold.b] }

/-! ## Mode engine, power and tick (42_mode_engine.md) -/

/-- R150. INIT: a second one only replies; the first one starts the block, recomputes the intervals, stamps `lastT` with
the sampled clock, and powers up with a resync or stays off with the line LOW. -/
def Obligations.InitEffect : Prop :=
  ∀ (p0 : Byte) (s : State),
    (s.started = true → exec (.init p0) s = .next { s with rsp := s.rsp ++ [0xFF] }) ∧
    (s.started = false → p0 ≠ 0 → exec (.init p0) s = .next { s with
      started := true
      powered := true
      rate := rateOf s.cfg s.speed
      msPerDeg := msPerDegOf s.cfg s.speed
      jumpMs := jumpMsOf s.cfg s.speed
      lastT := s.nowMs
      idx := 0
      line := .hi
      trace := s.trace ++ [.lo, .hold s.cfg.tResetLowUs, .hi, .hold s.cfg.tResetHighUs]
      rsp := s.rsp ++ [0xFF] }) ∧
    (s.started = false → p0 = 0 → exec (.init p0) s = .next { s with
      started := true
      powered := false
      rate := rateOf s.cfg s.speed
      msPerDeg := msPerDegOf s.cfg s.speed
      jumpMs := jumpMsOf s.cfg s.speed
      lastT := s.nowMs
      line := .lo
      trace := s.trace ++ [.lo]
      rsp := s.rsp ++ [0xFF] })

/-- R152. SET_MODE: before INIT and for an id above 3 it fails and changes nothing; leaving USER performs exactly one
resync, the unpowered line restored LOW, before the new mode is adopted; otherwise only the mode changes. -/
def Obligations.SetModeEffect : Prop :=
  ∀ (id : Byte) (s : State),
    (s.started = false ∨ 3 < id.toNat → exec (.setMode id) s = .next { s with rsp := s.rsp ++ [0x00] }) ∧
    (∀ new : Mode, s.started = true → id = new.id → (s.mode ≠ .user ∨ new = .user) →
      exec (.setMode id) s = .next { s with mode := new, rsp := s.rsp ++ [0xFF] }) ∧
    (∀ new : Mode, s.started = true → id = new.id → s.mode = .user → new ≠ .user →
      exec (.setMode id) s = .next { s with
        mode := new
        idx := 0
        line := if s.powered then .hi else .lo
        trace := s.trace ++ [.lo, .hold s.cfg.tResetLowUs, .hi, .hold s.cfg.tResetHighUs] ++
          (if s.powered then [] else [.lo])
        rsp := s.rsp ++ [0xFF] })

/-- R153, R172, R182, R213. The one-byte queries reply the ack and their byte, in every state, and change nothing else. -/
def Obligations.QueryReplies : Prop :=
  ∀ s : State,
    exec .getMode s = .next { s with rsp := s.rsp ++ [0xFF, s.mode.id] } ∧
    exec .isOn s = .next { s with rsp := s.rsp ++ [0xFF, if s.powered then 0x01 else 0x00] } ∧
    exec .isAsync s = .next { s with rsp := s.rsp ++ [0xFF, if s.async then 0x01 else 0x00] } ∧
    exec .getSpeed s = .next { s with rsp := s.rsp ++ [0xFF, s.speed] }

/-- R170. TURN_ON: from off, power up and resync; before INIT or already on, only the ack. -/
def Obligations.TurnOnEffect : Prop :=
  ∀ s : State,
    (s.started = false ∨ s.powered = true → exec .turnOn s = .next { s with rsp := s.rsp ++ [0xFF] }) ∧
    (s.started = true → s.powered = false → exec .turnOn s = .next { s with
      powered := true
      idx := 0
      line := .hi
      trace := s.trace ++ [.lo, .hold s.cfg.tResetLowUs, .hi, .hold s.cfg.tResetHighUs]
      rsp := s.rsp ++ [0xFF] })

/-- R171. TURN_OFF: from on, power down and drive the line LOW at once; before INIT or already off, only the ack. -/
def Obligations.TurnOffEffect : Prop :=
  ∀ s : State,
    (s.started = false ∨ s.powered = false → exec .turnOff s = .next { s with rsp := s.rsp ++ [0xFF] }) ∧
    (s.started = true → s.powered = true → exec .turnOff s = .next { s with
      powered := false
      line := .lo
      trace := s.trace ++ [.lo]
      rsp := s.rsp ++ [0xFF] })

/-- R160. Tick, case by case: not started, unpowered, USER, SOLID, and JUMP and FADE before and after the interval, with
elapsed time taken modulo 2^32 and at most one advance, after the loop. -/
def Obligations.TickEffect : Prop :=
  ∀ (now : Time) (s : State),
    (s.started = false → tick now s = s) ∧
    (s.started = true → s.powered = false → tick now s = { s with line := .lo, trace := s.trace ++ [.lo] }) ∧
    (s.started = true → s.powered = true →
      (s.mode = .user → tick now s = s) ∧
      (s.mode = .solid → tick now s = loopRGB s) ∧
      (s.mode = .jump → (now.toNat + 2 ^ 32 - s.lastT.toNat) % 2 ^ 32 < s.jumpMs → tick now s = loopRGB s) ∧
      (s.mode = .jump → s.jumpMs ≤ (now.toNat + 2 ^ 32 - s.lastT.toNat) % 2 ^ 32 →
        tick now s = { jumpStep (loopRGB s) with lastT := now }) ∧
      (s.mode = .fade → (now.toNat + 2 ^ 32 - s.lastT.toNat) % 2 ^ 32 < s.msPerDeg → tick now s = loopRGB s) ∧
      (s.mode = .fade → s.msPerDeg ≤ (now.toNat + 2 ^ 32 - s.lastT.toNat) % 2 ^ 32 →
        tick now s = { fadeStep (loopRGB s) with lastT := now }))

/-! ## Async desynchroniser (43_async.md) -/

/-- R183. The sweep: its length, its elements, strictly decreasing, from `SWEEP_W_HI_US` down to no less than
`SWEEP_W_LO_US`, and to it exactly when the step divides the span. -/
def Obligations.SweepWidthsRamp : Prop :=
  ∀ c : Config, c.Valid →
    (sweepWidths c).length = (c.sweepHiUs - c.sweepLoUs) / c.sweepStepUs + 1 ∧
    (∀ k, (sweepWidths c)[k]? =
      if c.sweepLoUs + k * c.sweepStepUs ≤ c.sweepHiUs then some (c.sweepHiUs - k * c.sweepStepUs) else none) ∧
    (sweepWidths c).Pairwise (· > ·) ∧
    (sweepWidths c).head? = some c.sweepHiUs ∧
    (∀ w ∈ sweepWidths c, c.sweepLoUs ≤ w) ∧
    (c.sweepStepUs ∣ c.sweepHiUs - c.sweepLoUs → (sweepWidths c).getLast? = some c.sweepLoUs)

/-- R180. START_ASYNC: one pulse of each sweep width in order, `async` set, the unpowered line restored LOW; in every
mode, and when `async` is set already. -/
def Obligations.StartAsyncEffect : Prop :=
  ∀ s : State,
    (s.started = false → exec .startAsync s = .next { s with rsp := s.rsp ++ [0xFF] }) ∧
    (s.started = true → exec .startAsync s = .next { s with
      async := true
      idx := s.idx + BitVec.ofNat 3 ((s.cfg.sweepHiUs - s.cfg.sweepLoUs) / s.cfg.sweepStepUs + 1)
      line := if s.powered then .hi else .lo
      trace := s.trace ++ ((sweepWidths s.cfg).map fun w => [LineEvent.lo, .hold w, .hi]).flatten ++
        (if s.powered then [] else [.lo])
      rsp := s.rsp ++ [0xFF] })

/-- R181. STOP_ASYNC resyncs whatever `async` is, clears it, and restores the unpowered line LOW. -/
def Obligations.StopAsyncEffect : Prop :=
  ∀ s : State,
    (s.started = false → exec .stopAsync s = .next { s with rsp := s.rsp ++ [0xFF] }) ∧
    (s.started = true → exec .stopAsync s = .next { s with
      async := false
      idx := 0
      line := if s.powered then .hi else .lo
      trace := s.trace ++ [.lo, .hold s.cfg.tResetLowUs, .hi, .hold s.cfg.tResetHighUs] ++
        (if s.powered then [] else [.lo])
      rsp := s.rsp ++ [0xFF] })

/-- START_ASYNC, any ticks, then STOP_ASYNC leave index 0, `async` false, mode, speed and power as they were,
and the line HIGH while on and LOW while off. The spec's sentence, its own inference: "This holds by this rule whatever
ticks ran between the two commands" (R181). -/
def Obligations.AsyncRoundTripRestoresIndexZero : Prop :=
  ∀ (s u : State) (nows : List Time), s.started = true → exec .startAsync s = .next u →
    u.async = true ∧
    ∃ t, exec .stopAsync (ticks nows u) = .next t ∧ t.idx = 0 ∧ t.async = false ∧ t.mode = s.mode ∧
      t.speed = s.speed ∧ t.powered = s.powered ∧ t.line = idleLine true s.powered

/-- R25. `async` is set by START_ASYNC, cleared by STOP_ASYNC and written by nothing else; and no command but IS_ASYNC,
and no tick, behaves otherwise for its value. -/
def Obligations.AsyncFlagIsNeverRead : Prop :=
  (∀ s t : State, s.started = true → exec .startAsync s = .next t → t.async = true) ∧
  (∀ s t : State, s.started = true → exec .stopAsync s = .next t → t.async = false) ∧
  (∀ (i : Instr) (s t : State), i ≠ .startAsync → i ≠ .stopAsync → exec i s = .next t → t.async = s.async) ∧
  (∀ (i : Instr) (s t : State) (a : Bool), i ≠ .startAsync → i ≠ .stopAsync → i ≠ .isAsync → exec i s = .next t →
    exec i { s with async := a } = .next { t with async := a }) ∧
  (∀ (i : Instr) (s t : State) (a : Bool), (i = .startAsync ∨ i = .stopAsync) → s.started = true → exec i s = .next t →
    exec i { s with async := a } = .next t) ∧
  (∀ (now : Time) (s : State) (a : Bool),
    (tick now s).async = s.async ∧ tick now { s with async := a } = { tick now s with async := a })

/-! ## Fade walker and jump step (44_fade_walker.md) -/

/-- R191. The hexagon as a set, the six guards, the six clamped steps, and a vertex belongs to the segment that starts
there. -/
def Obligations.HexagonSegments : Prop :=
  (∀ r g b : Byte,
    (onHexagon ⟨r, g, b⟩ = true ↔ (r = 255 ∨ g = 255 ∨ b = 255) ∧ (r = 0 ∨ g = 0 ∨ b = 0)) ∧
    (segmentGuard 0 ⟨r, g, b⟩ = true ↔ r = 255 ∧ b = 0 ∧ g.toNat < 255) ∧
    (segmentGuard 1 ⟨r, g, b⟩ = true ↔ g = 255 ∧ b = 0 ∧ r.toNat > 0) ∧
    (segmentGuard 2 ⟨r, g, b⟩ = true ↔ g = 255 ∧ r = 0 ∧ b.toNat < 255) ∧
    (segmentGuard 3 ⟨r, g, b⟩ = true ↔ b = 255 ∧ r = 0 ∧ g.toNat > 0) ∧
    (segmentGuard 4 ⟨r, g, b⟩ = true ↔ b = 255 ∧ g = 0 ∧ r.toNat < 255) ∧
    (segmentGuard 5 ⟨r, g, b⟩ = true ↔ r = 255 ∧ g = 0 ∧ b.toNat > 0)) ∧
  (∀ (s : Nat) (r g b : Byte),
    segmentStep 0 s ⟨r, g, b⟩ = ⟨r, satUp g s, b⟩ ∧ segmentStep 1 s ⟨r, g, b⟩ = ⟨satDown r s, g, b⟩ ∧
    segmentStep 2 s ⟨r, g, b⟩ = ⟨r, g, satUp b s⟩ ∧ segmentStep 3 s ⟨r, g, b⟩ = ⟨r, satDown g s, b⟩ ∧
    segmentStep 4 s ⟨r, g, b⟩ = ⟨satUp r s, g, b⟩ ∧ segmentStep 5 s ⟨r, g, b⟩ = ⟨r, g, satDown b s⟩) ∧
  (∀ (v : Byte) (s : Nat), (satUp v s).toNat = min 255 (v.toNat + s) ∧ (satDown v s).toNat = v.toNat - s) ∧
  (∀ k, segmentGuard k (vertex k) = true)

/-- The six segments partition the hexagon. The spec's sentence, its own inference: "every point of H satisfies exactly
one guard, and no point outside H satisfies any guard" (R191). -/
def Obligations.HexagonPartitionedBySegments : Prop :=
  (∀ c : Rgb, onHexagon c = true → ∃ k, segmentGuard k c = true ∧ ∀ j, segmentGuard j c = true → j = k) ∧
  (∀ c : Rgb, onHexagon c = false → ∀ k, segmentGuard k c = false)

/-- R190. FadeStep: on segment `k` the moving channel moves by `FADE_STEP`, clamped to 0..255; off the hexagon the point
recovers; the holds are derived anew; nothing else changes. -/
def Obligations.FadeStepEffect : Prop :=
  ∀ s : State, ∃ up down : Byte → Byte,
    (∀ v, (up v).toNat = min 255 (v.toNat + s.cfg.fadeStep) ∧ (down v).toNat = v.toNat - s.cfg.fadeStep) ∧
    (segmentGuard 0 s.rgb = true → (fadeStep s).rgb = ⟨s.rgb.r, up s.rgb.g, s.rgb.b⟩) ∧
    (segmentGuard 1 s.rgb = true → (fadeStep s).rgb = ⟨down s.rgb.r, s.rgb.g, s.rgb.b⟩) ∧
    (segmentGuard 2 s.rgb = true → (fadeStep s).rgb = ⟨s.rgb.r, s.rgb.g, up s.rgb.b⟩) ∧
    (segmentGuard 3 s.rgb = true → (fadeStep s).rgb = ⟨s.rgb.r, down s.rgb.g, s.rgb.b⟩) ∧
    (segmentGuard 4 s.rgb = true → (fadeStep s).rgb = ⟨up s.rgb.r, s.rgb.g, s.rgb.b⟩) ∧
    (segmentGuard 5 s.rgb = true → (fadeStep s).rgb = ⟨s.rgb.r, s.rgb.g, down s.rgb.b⟩) ∧
    (onHexagon s.rgb = false → (fadeStep s).rgb = recover s.cfg.fadeStep s.rgb) ∧
    fadeStep s = { s with
      rgb := (fadeStep s).rgb
      hold := ⟨(fadeStep s).rgb.r.toNat * s.cfg.holdQuantumUs, (fadeStep s).rgb.g.toNat * s.cfg.holdQuantumUs,
        (fadeStep s).rgb.b.toNat * s.cfg.holdQuantumUs⟩ }

/-- R193. Recover increments the first maximum and decrements the last minimum, which differ, both clamped, and leaves
the third channel. -/
def Obligations.RecoverEffect : Prop :=
  ∀ (s : Nat) (c : Rgb), ∃ hi lo : Channel, hi ≠ lo ∧
    (∀ ch, c.get ch ≤ c.get hi ∧ (ch.rank < hi.rank → c.get ch < c.get hi)) ∧
    (∀ ch, c.get lo ≤ c.get ch ∧ (lo.rank < ch.rank → c.get lo < c.get ch)) ∧
    ((recover s c).get hi).toNat = min 255 ((c.get hi).toNat + s) ∧
    ((recover s c).get lo).toNat = (c.get lo).toNat - s ∧
    ∀ ch, ch ≠ hi → ch ≠ lo → (recover s c).get ch = c.get ch

/-- The spec's sentence, its own inference: "The point reaches H after at most `ceil(255 / FADE_STEP)` consecutive
recovery steps" (R193). -/
def Obligations.RecoveryReachesHexagon : Prop :=
  ∀ (s : Nat) (c : Rgb), 1 ≤ s → s ≤ 255 → ∃ n ≤ crossing s, onHexagon ((recover s)^[n] c) = true

/-- The hexagon is closed under FadeStep, and a point off it enters it after at most `ceil(255 / FADE_STEP)` steps (R194,
the spec's own inference: "H is closed under FadeStep", "A point off H enters H after finitely many steps"). -/
def Obligations.FadeStaysOnHexagon : Prop :=
  ∀ (s : Nat) (c : Rgb), 1 ≤ s → s ≤ 255 →
    (onHexagon c = true → onHexagon (fadeRgb s c) = true) ∧
    ∃ n ≤ crossing s, ∀ m, n ≤ m → onHexagon ((fadeRgb s)^[m] c) = true

/-- From any point of a segment the walk reaches the segment's end vertex within `ceil(255 / FADE_STEP)` steps (R194, the
spec's own inference: "From any point of H, the walk reaches the end vertex of that point's segment"). -/
def Obligations.FadeReachesSegmentEnd : Prop :=
  ∀ (s : Nat) (k : Fin 6) (c : Rgb), 1 ≤ s → s ≤ 255 → segmentGuard k c = true →
    ∃ n, 1 ≤ n ∧ n ≤ crossing s ∧ (fadeRgb s)^[n] c = vertex (k + 1)

/-- From a vertex each segment takes exactly `ceil(255 / FADE_STEP)` steps, so after six times that many the walk is
back at its starting vertex, having visited the six vertices in order (R194, the spec's own inference: "From a vertex,
each segment takes exactly `ceil(255 / FADE_STEP)` steps"). -/
def Obligations.FadeCycleReturns : Prop :=
  ∀ (s : Nat) (k : Fin 6), 1 ≤ s → s ≤ 255 →
    (fadeRgb s)^[crossing s] (vertex k) = vertex (k + 1) ∧
    (∀ m, m < crossing s → segmentGuard k ((fadeRgb s)^[m] (vertex k)) = true) ∧
    (fadeRgb s)^[6 * crossing s] (vertex k) = vertex k

/-- R195, R196. JumpStep advances `jumpIdx` by one modulo 6, sets the colour of that hue state, derives the holds, and
changes nothing else. -/
def Obligations.JumpStepEffect : Prop :=
  (∀ s : State,
    (jumpStep s).jumpIdx.val = (s.jumpIdx.val + 1) % 6 ∧
    (jumpStep s).rgb = vertex (jumpStep s).jumpIdx ∧
    jumpStep s = { s with
      jumpIdx := (jumpStep s).jumpIdx
      rgb := (jumpStep s).rgb
      hold := ⟨(jumpStep s).rgb.r.toNat * s.cfg.holdQuantumUs, (jumpStep s).rgb.g.toNat * s.cfg.holdQuantumUs,
        (jumpStep s).rgb.b.toNat * s.cfg.holdQuantumUs⟩ }) ∧
  vertex 0 = ⟨255, 0, 0⟩ ∧ vertex 1 = ⟨255, 255, 0⟩ ∧ vertex 2 = ⟨0, 255, 0⟩ ∧
  vertex 3 = ⟨0, 255, 255⟩ ∧ vertex 4 = ⟨0, 0, 255⟩ ∧ vertex 5 = ⟨255, 0, 255⟩

/-! ## Speed model (45_speed_model.md) -/

/-- R211. Recompute: the three intervals by floor division, the two ends of the speed range, no division by zero, and
nothing else written. -/
def Obligations.RecomputeEffect : Prop :=
  ∀ s : State,
    (∃ rate, rate = s.cfg.minRate + (s.speed.toNat * (s.cfg.maxRate - s.cfg.minRate)) / 255 ∧
      recompute s = { s with rate := rate, msPerDeg := 1000 / rate, jumpMs := 1000 / rate * 60 }) ∧
    (s.cfg.Valid → 1 ≤ (recompute s).rate) ∧
    (s.speed = 0 → (recompute s).rate = s.cfg.minRate) ∧
    (s.cfg.Valid → s.speed = 255 → (recompute s).rate = s.cfg.maxRate)

/-- R212. SET_SPEED stores the speed and recomputes the intervals at once; colour, hue state and timestamp stay. -/
def Obligations.SetSpeedEffect : Prop :=
  ∀ (value : Byte) (s : State),
    (s.started = false → exec (.setSpeed value) s = .next { s with rsp := s.rsp ++ [0xFF] }) ∧
    (s.started = true → exec (.setSpeed value) s = .next { s with
      speed := value
      rate := rateOf s.cfg value
      msPerDeg := msPerDegOf s.cfg value
      jumpMs := jumpMsOf s.cfg value
      rsp := s.rsp ++ [0xFF] })

/-- For every speed the interval is at least 1 ms (60 ms for JUMP), and it never grows as the speed grows
(R214, the spec's own inference from R211: "`msPerDeg` is non-increasing as `speed` increases"). -/
def Obligations.IntervalsShrinkWithSpeed : Prop :=
  ∀ c : Config, c.Valid → ∀ v w : Byte,
    1 ≤ msPerDegOf c v ∧ 60 ≤ jumpMsOf c v ∧
    (v.toNat ≤ w.toNat → msPerDegOf c w ≤ msPerDegOf c v ∧ jumpMsOf c w ≤ jumpMsOf c v)

/-! ## Whole-machine rules -/

/-- Every step, on every input, keeps the invariants of `StateInv` (R40, which the spec infers): derived holds and
intervals, the parser's shape, the line's idle level, and the reset values until INIT. -/
def Obligations.StepKeepsInvariants : Prop :=
  ∀ s t : State, StateInv s → step s = .next t → StateInv t

/-- R26. The mode has the four ids, no other byte is a mode, and only SET_MODE writes it. -/
def Obligations.ModeWrittenOnlyBySetMode : Prop :=
  (Mode.ofId 0 = some .solid ∧ Mode.ofId 1 = some .jump ∧ Mode.ofId 2 = some .fade ∧ Mode.ofId 3 = some .user) ∧
  (∀ id : Byte, 4 ≤ id.toNat → Mode.ofId id = none) ∧
  (∀ m : Mode, Mode.ofId m.id = some m) ∧
  (∀ (i : Instr) (s t : State), exec i s = .next t → t.mode ≠ s.mode → ∃ id, i = .setMode id) ∧
  (∀ (now : Time) (s : State), (tick now s).mode = s.mode)

/-- The "written by" column of R22: a command or tick that moves a register is one of its writers. Ports, parser and
configuration are moved by neither. -/
def Obligations.RegistersHaveOnlyTheirWriters : Prop :=
  (∀ (i : Instr) (s t : State), exec i s = .next t →
    (t.cfg = s.cfg ∧ t.parser = s.parser ∧ t.nowMs = s.nowMs ∧ t.inputs = s.inputs ∧ t.draws = s.draws ∧
      t.jumpIdx = s.jumpIdx) ∧
    (t.started ≠ s.started → i.opcode = .init) ∧
    (t.powered ≠ s.powered → i.opcode = .init ∨ i.opcode = .turnOn ∨ i.opcode = .turnOff) ∧
    (t.async ≠ s.async → i.opcode = .startAsync ∨ i.opcode = .stopAsync) ∧
    (t.mode ≠ s.mode → i.opcode = .setMode) ∧
    (t.rgb ≠ s.rgb ∨ t.hold ≠ s.hold → i.opcode = .setColor) ∧
    (t.speed ≠ s.speed → i.opcode = .setSpeed) ∧
    (t.rate ≠ s.rate ∨ t.msPerDeg ≠ s.msPerDeg ∨ t.jumpMs ≠ s.jumpMs → i.opcode = .init ∨ i.opcode = .setSpeed) ∧
    (t.lastT ≠ s.lastT → i.opcode = .init) ∧
    (t.idx ≠ s.idx → i.opcode = .init ∨ i.opcode = .setMode ∨ i.opcode = .turnOn ∨ i.opcode = .startAsync ∨
      i.opcode = .stopAsync ∨ i.opcode = .sendPulse) ∧
    (t.line ≠ s.line ∨ t.trace ≠ s.trace → i.opcode = .init ∨ i.opcode = .setMode ∨ i.opcode = .turnOn ∨
      i.opcode = .turnOff ∨ i.opcode = .startAsync ∨ i.opcode = .stopAsync ∨ i.opcode = .sendPulse)) ∧
  (∀ (now : Time) (s t : State), t = tick now s →
    (t.cfg = s.cfg ∧ t.parser = s.parser ∧ t.nowMs = s.nowMs ∧ t.inputs = s.inputs ∧ t.draws = s.draws ∧
      t.started = s.started ∧ t.powered = s.powered ∧ t.async = s.async ∧ t.mode = s.mode ∧ t.speed = s.speed ∧
      t.rate = s.rate ∧ t.msPerDeg = s.msPerDeg ∧ t.jumpMs = s.jumpMs ∧ t.rsp = s.rsp) ∧
    (t.rgb ≠ s.rgb ∨ t.hold ≠ s.hold ∨ t.lastT ≠ s.lastT → s.mode = .jump ∨ s.mode = .fade) ∧
    (t.jumpIdx ≠ s.jumpIdx → s.mode = .jump) ∧
    (t.lastT ≠ s.lastT → t.lastT = now))

/-- R35. No step removes or rewrites an event of the trace or a byte of the reply stream (RST apart, which is no step of
the sequencer and empties both, R38). -/
def Obligations.OutputsAreAppendOnly : Prop :=
  ∀ s t : State, step s = .next t → s.inputs.head? ≠ some .rst → s.trace <+: t.trace ∧ s.rsp <+: t.rsp

/-- Every command gets exactly one reply: the ack and the data its reply has, or the one failure byte. It fails
exactly for SET_MODE before INIT or with an id above 3 (R221, R223), and then writes no register. -/
def Obligations.EveryCommandRepliesOnce : Prop :=
  ∀ (i : Instr) (s t : State), exec i s = .next t →
    ∃ status data, t.rsp = s.rsp ++ status :: data ∧
      ((status = 0xFF ∧ data.length = replyDataCount i) ∨ (status = 0x00 ∧ data = [])) ∧
      (status = 0x00 ↔ ∃ id, i = .setMode id ∧ (s.started = false ∨ 3 < id.toNat)) ∧
      (status = 0x00 → t = { s with rsp := s.rsp ++ [0x00] })

/-- Only TURN_ON, or INIT with a non-zero operand, turns the lights on; while they are off a tick drives the line
LOW and changes nothing else; turning them off keeps every register but `powered` and the line. -/
def Obligations.PowerStates : Prop :=
  (∀ (i : Instr) (s t : State), exec i s = .next t → s.powered = false → t.powered = true →
    i = .turnOn ∨ ∃ p0, p0 ≠ 0 ∧ i = .init p0) ∧
  (∀ (now : Time) (s : State), (tick now s).powered = s.powered) ∧
  (∀ (now : Time) (s : State), s.started = true → s.powered = false →
    ∃ evs, tick now s = { s with line := .lo, trace := s.trace ++ evs }) ∧
  (∀ s t : State, exec .turnOff s = .next t →
    ∃ p l evs bs, t = { s with powered := p, line := l, trace := evs, rsp := bs })

/-- The believed index follows the line, as an ideal receiver hears it: over every step but RST, the new index is the state
of a receiver that heard the events the step appended, advancing at every LOW hold below the reset hold and resetting at a
longer one. That receiver is the model's choice (notes/assumptions/13.md): the spec models none (R111). Of the premises,
that on the pulse width is part of R6 and R255 ("below the receivers' detection threshold"); that on the sweep widths is
the model's own, for this receiver to count every sweep pulse (the same entry). -/
def Obligations.BeliefFollowsTheLine : Prop :=
  ∀ s t : State, s.cfg.Valid → s.cfg.pulseWidthUs < s.cfg.tResetLowUs → s.cfg.sweepHiUs < s.cfg.tResetLowUs →
    s.inputs.head? ≠ some .rst → step s = .next t →
    ∃ evs, t.trace = s.trace ++ evs ∧ t.idx = receiverAfter s.cfg s.idx evs

/-- The busy time of every operation and command of the table of R260, which the spec infers from the rules: "The table
below is timing only, derived from the rules". -/
def Obligations.BusyTimeTable : Prop :=
  (∀ (n w : Nat) (s : State), Busy s (pulseTrain n w s) (n * w)) ∧
  (∀ (x : Index) (s : State),
    Busy s (setIndex x s) ((8 + x.toNat - s.idx.toNat) % 8 * s.cfg.pulseWidthUs)) ∧
  (∀ s : State, Busy s (resync s) (s.cfg.tResetLowUs + s.cfg.tResetHighUs)) ∧
  (∀ s : State, s.hold = holdsOf s.cfg s.rgb → Busy s (loopRGB s)
    (((8 + s.cfg.idxRed.toNat - s.idx.toNat) % 8 + (8 + s.cfg.idxGreen.toNat - s.cfg.idxRed.toNat) % 8 +
      (8 + s.cfg.idxBlue.toNat - s.cfg.idxGreen.toNat) % 8) * s.cfg.pulseWidthUs +
      (s.rgb.r.toNat + s.rgb.g.toNat + s.rgb.b.toNat) * s.cfg.holdQuantumUs)) ∧
  (∀ (now : Time) (s : State), s.started = false ∨ s.powered = false ∨ s.mode = .user → Busy s (tick now s) 0) ∧
  (∀ (i : Instr) (s t : State), s.cfg.Valid → exec i s = .next t →
    (∀ n w, i = .sendPulse n w → s.started = true → s.mode = .user → Busy s t (n.toNat * w.toNat)) ∧
    (i = .startAsync → s.started = true → ∃ n, n = (s.cfg.sweepHiUs - s.cfg.sweepLoUs) / s.cfg.sweepStepUs + 1 ∧
      Busy s t (n * s.cfg.sweepHiUs - s.cfg.sweepStepUs * n * (n - 1) / 2)) ∧
    ((i = .stopAsync ∧ s.started = true) ∨ (i = .turnOn ∧ s.started = true ∧ s.powered = false) ∨
      (∃ id, i = .setMode id ∧ s.started = true ∧ s.mode = .user ∧ id.toNat < 3) ∨
      (∃ p0, i = .init p0 ∧ s.started = false ∧ p0 ≠ 0) →
      Busy s t (s.cfg.tResetLowUs + s.cfg.tResetHighUs)) ∧
    ((∀ n w, i = .sendPulse n w → s.started = false ∨ s.mode ≠ .user) →
      (i = .startAsync ∨ i = .stopAsync → s.started = false) →
      (i = .turnOn → s.started = false ∨ s.powered = true) →
      (∀ id, i = .setMode id → s.started = false ∨ s.mode ≠ .user ∨ 3 ≤ id.toNat) →
      (∀ p0, i = .init p0 → s.started = true ∨ p0 = 0) →
      Busy s t 0))

/-- A tick that loops is busy at most `21 × P + 765 × HOLD_QUANTUM_US` µs, when the holds are the derived ones; and
from blue, with distinct indices, the three pulse counts sum to 8 or 16 (R261, the spec's own inference from R133 and
R260: "In steady state the three deltas sum to 8 or 16"). -/
def Obligations.TickIsBounded : Prop :=
  (∀ (now : Time) (s : State), s.started = true → s.powered = true → s.mode ≠ .user → s.hold = holdsOf s.cfg s.rgb →
    ∃ d, Busy s (tick now s) d ∧ d ≤ 21 * s.cfg.pulseWidthUs + 765 * s.cfg.holdQuantumUs) ∧
  (∀ c : Config, c.Valid → ∃ d, d = (8 + c.idxRed.toNat - c.idxBlue.toNat) % 8 +
    (8 + c.idxGreen.toNat - c.idxRed.toNat) % 8 + (8 + c.idxBlue.toNat - c.idxGreen.toNat) % 8 ∧ (d = 8 ∨ d = 16))
end

