-- ==== Sys2Proof/Laws/Config.lean ====
section
/-! SUPPORT. What a valid configuration guarantees, one lemma for each constraint of 00_scope.md R6 that proofs use. -/

namespace Sys2Proof.Config

theorem Valid.pulse_pos {c : Config} (h : c.Valid) : 1 ≤ c.pulseWidthUs := h.1

theorem Valid.quantum_pos {c : Config} (h : c.Valid) : 1 ≤ c.holdQuantumUs := h.2.1

theorem Valid.reset_low {c : Config} (h : c.Valid) : 1000000 < c.tResetLowUs := h.2.2.1

theorem Valid.sweep_le {c : Config} (h : c.Valid) : c.sweepLoUs ≤ c.sweepHiUs := h.2.2.2.2.1

theorem Valid.sweepLo_pos {c : Config} (h : c.Valid) : 1 ≤ c.sweepLoUs := h.2.2.2.2.2.1

theorem Valid.sweepStep_pos {c : Config} (h : c.Valid) : 1 ≤ c.sweepStepUs := h.2.2.2.2.2.2.1

theorem Valid.minRate_pos {c : Config} (h : c.Valid) : 1 ≤ c.minRate := h.2.2.2.2.2.2.2.1.1

theorem Valid.rate_le {c : Config} (h : c.Valid) : c.minRate ≤ c.maxRate := h.2.2.2.2.2.2.2.1.2

theorem Valid.maxRate_le {c : Config} (h : c.Valid) : c.maxRate ≤ 1000 := h.2.2.2.2.2.2.2.2.1

theorem Valid.fadeStep_pos {c : Config} (h : c.Valid) : 1 ≤ c.fadeStep := h.2.2.2.2.2.2.2.2.2.1.1

theorem Valid.fadeStep_le {c : Config} (h : c.Valid) : c.fadeStep ≤ 255 := h.2.2.2.2.2.2.2.2.2.1.2

theorem Valid.idx_distinct {c : Config} (h : c.Valid) :
    c.idxRed ≠ c.idxGreen ∧ c.idxRed ≠ c.idxBlue ∧ c.idxGreen ≠ c.idxBlue := h.2.2.2.2.2.2.2.2.2.2.1

theorem Valid.timeout_pos {c : Config} (h : c.Valid) : 1 ≤ c.tCmdTimeoutMs := h.2.2.2.2.2.2.2.2.2.2.2

end Sys2Proof.Config
end

