-- ==== Sys2Proof/Laws/Decode.lean ====
section
/-! SUPPORT. The opcode map inverts, and what the decoder does on each kind of byte string. -/

namespace Sys2Proof

/-- The opcode byte of a command decodes to it. -/
theorem Opcode.ofByte_byte (op : Opcode) : Opcode.ofByte op.byte = some op := by
  cases op <;> decide

/-- A byte that decodes to a command is that command's opcode byte. -/
theorem Opcode.byte_of_ofByte {b : Byte} {op : Opcode} (h : Opcode.ofByte b = some op) : op.byte = b := by
  have := List.find?_some h
  simpa using this

/-- The two bytes of a width, high byte first, give it back (R83). -/
theorem bigEndian16_bytes (w : Half) : bigEndian16 (w.extractLsb' 8 8) (w.extractLsb' 0 8) = w := by
  apply BitVec.eq_of_getLsbD_eq
  intro i hi
  change ((w.extractLsb' 8 8) ++ (w.extractLsb' 0 8)).getLsbD i = _
  rw [BitVec.getLsbD_append]
  split
  · simp [*]
  · have hi8 : 8 + (i - 8) = i := by omega
    have hlt : i - 8 < 8 := by omega
    simp [hi8, hlt]

/-- The high byte of an assembled width. -/
theorem bigEndian16_high (hi lo : Byte) : (bigEndian16 hi lo).extractLsb' 8 8 = hi := by
  apply BitVec.eq_of_getLsbD_eq
  intro i hlt
  rw [BitVec.getLsbD_extractLsb']
  change (decide (i < 8) && (hi ++ lo).getLsbD (8 + i)) = _
  rw [BitVec.getLsbD_append]
  simp [hlt]

/-- The low byte of an assembled width. -/
theorem bigEndian16_low (hi lo : Byte) : (bigEndian16 hi lo).extractLsb' 0 8 = lo := by
  apply BitVec.eq_of_getLsbD_eq
  intro i hlt
  rw [BitVec.getLsbD_extractLsb']
  change (decide (i < 8) && (hi ++ lo).getLsbD (0 + i)) = _
  rw [BitVec.getLsbD_append]
  simp [hlt]

/-- The opcode of an assembled command. -/
theorem opcode_assemble (op : Opcode) (ps : List Byte) : (assemble op ps).opcode = op := by
  cases op <;> rfl

/-- A command's parameter bytes are as many as its opcode asks for. -/
theorem params_length (i : Instr) : i.params.length = i.opcode.paramCount := by
  cases i <;> rfl

/-- The decoder on the bytes of an opcode it does not know. -/
theorem decode_illegal {b : Byte} (h : Opcode.ofByte b = none) (rest : List Byte) :
    decode (b :: rest) = .error (.illegalOpcode b) := by simp [decode, h]

/-- The decoder on a frame cut short. -/
theorem decode_short {op : Opcode} {got : List Byte} (h : got.length < op.paramCount) :
    decode (op.byte :: got) = .error (.truncated op got) := by
  simp [decode, Opcode.ofByte_byte, h]

/-- The decoder on a whole frame. -/
theorem decode_whole {op : Opcode} {ps : List Byte} (h : ps.length = op.paramCount) (rest : List Byte) :
    decode (op.byte :: ps ++ rest) = .ok (assemble op ps, rest) := by
  have hlt : ¬ (ps ++ rest).length < op.paramCount := by simp [← h]
  simp [decode, Opcode.ofByte_byte, ← h]

end Sys2Proof
end

