-- ==== Sys2Proof/Laws/State.lean ====
section
/-! SUPPORT. What each primitive update of the state leaves in each field: one lemma a field and update. -/

namespace Sys2Proof.Machine

/-! ## drive -/

@[simp] theorem drive_cfg (l : Level) (s : State) : (drive l s).cfg = s.cfg := rfl
@[simp] theorem drive_started (l : Level) (s : State) : (drive l s).started = s.started := rfl
@[simp] theorem drive_powered (l : Level) (s : State) : (drive l s).powered = s.powered := rfl
@[simp] theorem drive_async (l : Level) (s : State) : (drive l s).async = s.async := rfl
@[simp] theorem drive_mode (l : Level) (s : State) : (drive l s).mode = s.mode := rfl
@[simp] theorem drive_idx (l : Level) (s : State) : (drive l s).idx = s.idx := rfl
@[simp] theorem drive_rgb (l : Level) (s : State) : (drive l s).rgb = s.rgb := rfl
@[simp] theorem drive_hold (l : Level) (s : State) : (drive l s).hold = s.hold := rfl
@[simp] theorem drive_speed (l : Level) (s : State) : (drive l s).speed = s.speed := rfl
@[simp] theorem drive_rate (l : Level) (s : State) : (drive l s).rate = s.rate := rfl
@[simp] theorem drive_msPerDeg (l : Level) (s : State) : (drive l s).msPerDeg = s.msPerDeg := rfl
@[simp] theorem drive_jumpMs (l : Level) (s : State) : (drive l s).jumpMs = s.jumpMs := rfl
@[simp] theorem drive_jumpIdx (l : Level) (s : State) : (drive l s).jumpIdx = s.jumpIdx := rfl
@[simp] theorem drive_lastT (l : Level) (s : State) : (drive l s).lastT = s.lastT := rfl
@[simp] theorem drive_line (l : Level) (s : State) : (drive l s).line = l.line := rfl
@[simp] theorem drive_trace (l : Level) (s : State) : (drive l s).trace = s.trace ++ [l.event] := rfl
@[simp] theorem drive_parser (l : Level) (s : State) : (drive l s).parser = s.parser := rfl
@[simp] theorem drive_rsp (l : Level) (s : State) : (drive l s).rsp = s.rsp := rfl
@[simp] theorem drive_nowMs (l : Level) (s : State) : (drive l s).nowMs = s.nowMs := rfl
@[simp] theorem drive_inputs (l : Level) (s : State) : (drive l s).inputs = s.inputs := rfl
@[simp] theorem drive_draws (l : Level) (s : State) : (drive l s).draws = s.draws := rfl

/-! ## holdFor -/

@[simp] theorem holdFor_cfg (us : Nat) (s : State) : (holdFor us s).cfg = s.cfg := rfl
@[simp] theorem holdFor_started (us : Nat) (s : State) : (holdFor us s).started = s.started := rfl
@[simp] theorem holdFor_powered (us : Nat) (s : State) : (holdFor us s).powered = s.powered := rfl
@[simp] theorem holdFor_async (us : Nat) (s : State) : (holdFor us s).async = s.async := rfl
@[simp] theorem holdFor_mode (us : Nat) (s : State) : (holdFor us s).mode = s.mode := rfl
@[simp] theorem holdFor_idx (us : Nat) (s : State) : (holdFor us s).idx = s.idx := rfl
@[simp] theorem holdFor_rgb (us : Nat) (s : State) : (holdFor us s).rgb = s.rgb := rfl
@[simp] theorem holdFor_hold (us : Nat) (s : State) : (holdFor us s).hold = s.hold := rfl
@[simp] theorem holdFor_speed (us : Nat) (s : State) : (holdFor us s).speed = s.speed := rfl
@[simp] theorem holdFor_rate (us : Nat) (s : State) : (holdFor us s).rate = s.rate := rfl
@[simp] theorem holdFor_msPerDeg (us : Nat) (s : State) : (holdFor us s).msPerDeg = s.msPerDeg := rfl
@[simp] theorem holdFor_jumpMs (us : Nat) (s : State) : (holdFor us s).jumpMs = s.jumpMs := rfl
@[simp] theorem holdFor_jumpIdx (us : Nat) (s : State) : (holdFor us s).jumpIdx = s.jumpIdx := rfl
@[simp] theorem holdFor_lastT (us : Nat) (s : State) : (holdFor us s).lastT = s.lastT := rfl
@[simp] theorem holdFor_line (us : Nat) (s : State) : (holdFor us s).line = s.line := rfl
@[simp] theorem holdFor_trace (us : Nat) (s : State) : (holdFor us s).trace = s.trace ++ [.hold us] := rfl
@[simp] theorem holdFor_parser (us : Nat) (s : State) : (holdFor us s).parser = s.parser := rfl
@[simp] theorem holdFor_rsp (us : Nat) (s : State) : (holdFor us s).rsp = s.rsp := rfl
@[simp] theorem holdFor_nowMs (us : Nat) (s : State) : (holdFor us s).nowMs = s.nowMs := rfl
@[simp] theorem holdFor_inputs (us : Nat) (s : State) : (holdFor us s).inputs = s.inputs := rfl
@[simp] theorem holdFor_draws (us : Nat) (s : State) : (holdFor us s).draws = s.draws := rfl

/-! ## reply -/

@[simp] theorem reply_cfg (b : Byte) (s : State) : (reply b s).cfg = s.cfg := rfl
@[simp] theorem reply_started (b : Byte) (s : State) : (reply b s).started = s.started := rfl
@[simp] theorem reply_powered (b : Byte) (s : State) : (reply b s).powered = s.powered := rfl
@[simp] theorem reply_async (b : Byte) (s : State) : (reply b s).async = s.async := rfl
@[simp] theorem reply_mode (b : Byte) (s : State) : (reply b s).mode = s.mode := rfl
@[simp] theorem reply_idx (b : Byte) (s : State) : (reply b s).idx = s.idx := rfl
@[simp] theorem reply_rgb (b : Byte) (s : State) : (reply b s).rgb = s.rgb := rfl
@[simp] theorem reply_hold (b : Byte) (s : State) : (reply b s).hold = s.hold := rfl
@[simp] theorem reply_speed (b : Byte) (s : State) : (reply b s).speed = s.speed := rfl
@[simp] theorem reply_rate (b : Byte) (s : State) : (reply b s).rate = s.rate := rfl
@[simp] theorem reply_msPerDeg (b : Byte) (s : State) : (reply b s).msPerDeg = s.msPerDeg := rfl
@[simp] theorem reply_jumpMs (b : Byte) (s : State) : (reply b s).jumpMs = s.jumpMs := rfl
@[simp] theorem reply_jumpIdx (b : Byte) (s : State) : (reply b s).jumpIdx = s.jumpIdx := rfl
@[simp] theorem reply_lastT (b : Byte) (s : State) : (reply b s).lastT = s.lastT := rfl
@[simp] theorem reply_line (b : Byte) (s : State) : (reply b s).line = s.line := rfl
@[simp] theorem reply_trace (b : Byte) (s : State) : (reply b s).trace = s.trace := rfl
@[simp] theorem reply_parser (b : Byte) (s : State) : (reply b s).parser = s.parser := rfl
@[simp] theorem reply_rsp (b : Byte) (s : State) : (reply b s).rsp = s.rsp ++ [b] := rfl
@[simp] theorem reply_nowMs (b : Byte) (s : State) : (reply b s).nowMs = s.nowMs := rfl
@[simp] theorem reply_inputs (b : Byte) (s : State) : (reply b s).inputs = s.inputs := rfl
@[simp] theorem reply_draws (b : Byte) (s : State) : (reply b s).draws = s.draws := rfl

/-! ## replyData -/

@[simp] theorem replyData_cfg (data : List Byte) (s : State) : (replyData data s).cfg = s.cfg := rfl
@[simp] theorem replyData_started (data : List Byte) (s : State) : (replyData data s).started = s.started := rfl
@[simp] theorem replyData_powered (data : List Byte) (s : State) : (replyData data s).powered = s.powered := rfl
@[simp] theorem replyData_async (data : List Byte) (s : State) : (replyData data s).async = s.async := rfl
@[simp] theorem replyData_mode (data : List Byte) (s : State) : (replyData data s).mode = s.mode := rfl
@[simp] theorem replyData_idx (data : List Byte) (s : State) : (replyData data s).idx = s.idx := rfl
@[simp] theorem replyData_rgb (data : List Byte) (s : State) : (replyData data s).rgb = s.rgb := rfl
@[simp] theorem replyData_hold (data : List Byte) (s : State) : (replyData data s).hold = s.hold := rfl
@[simp] theorem replyData_speed (data : List Byte) (s : State) : (replyData data s).speed = s.speed := rfl
@[simp] theorem replyData_rate (data : List Byte) (s : State) : (replyData data s).rate = s.rate := rfl
@[simp] theorem replyData_msPerDeg (data : List Byte) (s : State) : (replyData data s).msPerDeg = s.msPerDeg := rfl
@[simp] theorem replyData_jumpMs (data : List Byte) (s : State) : (replyData data s).jumpMs = s.jumpMs := rfl
@[simp] theorem replyData_jumpIdx (data : List Byte) (s : State) : (replyData data s).jumpIdx = s.jumpIdx := rfl
@[simp] theorem replyData_lastT (data : List Byte) (s : State) : (replyData data s).lastT = s.lastT := rfl
@[simp] theorem replyData_line (data : List Byte) (s : State) : (replyData data s).line = s.line := rfl
@[simp] theorem replyData_trace (data : List Byte) (s : State) : (replyData data s).trace = s.trace := rfl
@[simp] theorem replyData_parser (data : List Byte) (s : State) : (replyData data s).parser = s.parser := rfl
@[simp] theorem replyData_rsp (data : List Byte) (s : State) : (replyData data s).rsp = s.rsp ++ ackByte :: data := rfl
@[simp] theorem replyData_nowMs (data : List Byte) (s : State) : (replyData data s).nowMs = s.nowMs := rfl
@[simp] theorem replyData_inputs (data : List Byte) (s : State) : (replyData data s).inputs = s.inputs := rfl
@[simp] theorem replyData_draws (data : List Byte) (s : State) : (replyData data s).draws = s.draws := rfl

/-! ## setStarted -/

@[simp] theorem setStarted_cfg (s : State) : (setStarted s).cfg = s.cfg := rfl
@[simp] theorem setStarted_started (s : State) : (setStarted s).started = true := rfl
@[simp] theorem setStarted_powered (s : State) : (setStarted s).powered = s.powered := rfl
@[simp] theorem setStarted_async (s : State) : (setStarted s).async = s.async := rfl
@[simp] theorem setStarted_mode (s : State) : (setStarted s).mode = s.mode := rfl
@[simp] theorem setStarted_idx (s : State) : (setStarted s).idx = s.idx := rfl
@[simp] theorem setStarted_rgb (s : State) : (setStarted s).rgb = s.rgb := rfl
@[simp] theorem setStarted_hold (s : State) : (setStarted s).hold = s.hold := rfl
@[simp] theorem setStarted_speed (s : State) : (setStarted s).speed = s.speed := rfl
@[simp] theorem setStarted_rate (s : State) : (setStarted s).rate = s.rate := rfl
@[simp] theorem setStarted_msPerDeg (s : State) : (setStarted s).msPerDeg = s.msPerDeg := rfl
@[simp] theorem setStarted_jumpMs (s : State) : (setStarted s).jumpMs = s.jumpMs := rfl
@[simp] theorem setStarted_jumpIdx (s : State) : (setStarted s).jumpIdx = s.jumpIdx := rfl
@[simp] theorem setStarted_lastT (s : State) : (setStarted s).lastT = s.lastT := rfl
@[simp] theorem setStarted_line (s : State) : (setStarted s).line = s.line := rfl
@[simp] theorem setStarted_trace (s : State) : (setStarted s).trace = s.trace := rfl
@[simp] theorem setStarted_parser (s : State) : (setStarted s).parser = s.parser := rfl
@[simp] theorem setStarted_rsp (s : State) : (setStarted s).rsp = s.rsp := rfl
@[simp] theorem setStarted_nowMs (s : State) : (setStarted s).nowMs = s.nowMs := rfl
@[simp] theorem setStarted_inputs (s : State) : (setStarted s).inputs = s.inputs := rfl
@[simp] theorem setStarted_draws (s : State) : (setStarted s).draws = s.draws := rfl

/-! ## setPowered -/

@[simp] theorem setPowered_cfg (v : Bool) (s : State) : (setPowered v s).cfg = s.cfg := rfl
@[simp] theorem setPowered_started (v : Bool) (s : State) : (setPowered v s).started = s.started := rfl
@[simp] theorem setPowered_powered (v : Bool) (s : State) : (setPowered v s).powered = v := rfl
@[simp] theorem setPowered_async (v : Bool) (s : State) : (setPowered v s).async = s.async := rfl
@[simp] theorem setPowered_mode (v : Bool) (s : State) : (setPowered v s).mode = s.mode := rfl
@[simp] theorem setPowered_idx (v : Bool) (s : State) : (setPowered v s).idx = s.idx := rfl
@[simp] theorem setPowered_rgb (v : Bool) (s : State) : (setPowered v s).rgb = s.rgb := rfl
@[simp] theorem setPowered_hold (v : Bool) (s : State) : (setPowered v s).hold = s.hold := rfl
@[simp] theorem setPowered_speed (v : Bool) (s : State) : (setPowered v s).speed = s.speed := rfl
@[simp] theorem setPowered_rate (v : Bool) (s : State) : (setPowered v s).rate = s.rate := rfl
@[simp] theorem setPowered_msPerDeg (v : Bool) (s : State) : (setPowered v s).msPerDeg = s.msPerDeg := rfl
@[simp] theorem setPowered_jumpMs (v : Bool) (s : State) : (setPowered v s).jumpMs = s.jumpMs := rfl
@[simp] theorem setPowered_jumpIdx (v : Bool) (s : State) : (setPowered v s).jumpIdx = s.jumpIdx := rfl
@[simp] theorem setPowered_lastT (v : Bool) (s : State) : (setPowered v s).lastT = s.lastT := rfl
@[simp] theorem setPowered_line (v : Bool) (s : State) : (setPowered v s).line = s.line := rfl
@[simp] theorem setPowered_trace (v : Bool) (s : State) : (setPowered v s).trace = s.trace := rfl
@[simp] theorem setPowered_parser (v : Bool) (s : State) : (setPowered v s).parser = s.parser := rfl
@[simp] theorem setPowered_rsp (v : Bool) (s : State) : (setPowered v s).rsp = s.rsp := rfl
@[simp] theorem setPowered_nowMs (v : Bool) (s : State) : (setPowered v s).nowMs = s.nowMs := rfl
@[simp] theorem setPowered_inputs (v : Bool) (s : State) : (setPowered v s).inputs = s.inputs := rfl
@[simp] theorem setPowered_draws (v : Bool) (s : State) : (setPowered v s).draws = s.draws := rfl

/-! ## setAsync -/

@[simp] theorem setAsync_cfg (v : Bool) (s : State) : (setAsync v s).cfg = s.cfg := rfl
@[simp] theorem setAsync_started (v : Bool) (s : State) : (setAsync v s).started = s.started := rfl
@[simp] theorem setAsync_powered (v : Bool) (s : State) : (setAsync v s).powered = s.powered := rfl
@[simp] theorem setAsync_async (v : Bool) (s : State) : (setAsync v s).async = v := rfl
@[simp] theorem setAsync_mode (v : Bool) (s : State) : (setAsync v s).mode = s.mode := rfl
@[simp] theorem setAsync_idx (v : Bool) (s : State) : (setAsync v s).idx = s.idx := rfl
@[simp] theorem setAsync_rgb (v : Bool) (s : State) : (setAsync v s).rgb = s.rgb := rfl
@[simp] theorem setAsync_hold (v : Bool) (s : State) : (setAsync v s).hold = s.hold := rfl
@[simp] theorem setAsync_speed (v : Bool) (s : State) : (setAsync v s).speed = s.speed := rfl
@[simp] theorem setAsync_rate (v : Bool) (s : State) : (setAsync v s).rate = s.rate := rfl
@[simp] theorem setAsync_msPerDeg (v : Bool) (s : State) : (setAsync v s).msPerDeg = s.msPerDeg := rfl
@[simp] theorem setAsync_jumpMs (v : Bool) (s : State) : (setAsync v s).jumpMs = s.jumpMs := rfl
@[simp] theorem setAsync_jumpIdx (v : Bool) (s : State) : (setAsync v s).jumpIdx = s.jumpIdx := rfl
@[simp] theorem setAsync_lastT (v : Bool) (s : State) : (setAsync v s).lastT = s.lastT := rfl
@[simp] theorem setAsync_line (v : Bool) (s : State) : (setAsync v s).line = s.line := rfl
@[simp] theorem setAsync_trace (v : Bool) (s : State) : (setAsync v s).trace = s.trace := rfl
@[simp] theorem setAsync_parser (v : Bool) (s : State) : (setAsync v s).parser = s.parser := rfl
@[simp] theorem setAsync_rsp (v : Bool) (s : State) : (setAsync v s).rsp = s.rsp := rfl
@[simp] theorem setAsync_nowMs (v : Bool) (s : State) : (setAsync v s).nowMs = s.nowMs := rfl
@[simp] theorem setAsync_inputs (v : Bool) (s : State) : (setAsync v s).inputs = s.inputs := rfl
@[simp] theorem setAsync_draws (v : Bool) (s : State) : (setAsync v s).draws = s.draws := rfl

/-! ## deriveHolds -/

@[simp] theorem deriveHolds_cfg (s : State) : (deriveHolds s).cfg = s.cfg := rfl
@[simp] theorem deriveHolds_started (s : State) : (deriveHolds s).started = s.started := rfl
@[simp] theorem deriveHolds_powered (s : State) : (deriveHolds s).powered = s.powered := rfl
@[simp] theorem deriveHolds_async (s : State) : (deriveHolds s).async = s.async := rfl
@[simp] theorem deriveHolds_mode (s : State) : (deriveHolds s).mode = s.mode := rfl
@[simp] theorem deriveHolds_idx (s : State) : (deriveHolds s).idx = s.idx := rfl
@[simp] theorem deriveHolds_rgb (s : State) : (deriveHolds s).rgb = s.rgb := rfl
@[simp] theorem deriveHolds_hold (s : State) : (deriveHolds s).hold = holdsOf s.cfg s.rgb := rfl
@[simp] theorem deriveHolds_speed (s : State) : (deriveHolds s).speed = s.speed := rfl
@[simp] theorem deriveHolds_rate (s : State) : (deriveHolds s).rate = s.rate := rfl
@[simp] theorem deriveHolds_msPerDeg (s : State) : (deriveHolds s).msPerDeg = s.msPerDeg := rfl
@[simp] theorem deriveHolds_jumpMs (s : State) : (deriveHolds s).jumpMs = s.jumpMs := rfl
@[simp] theorem deriveHolds_jumpIdx (s : State) : (deriveHolds s).jumpIdx = s.jumpIdx := rfl
@[simp] theorem deriveHolds_lastT (s : State) : (deriveHolds s).lastT = s.lastT := rfl
@[simp] theorem deriveHolds_line (s : State) : (deriveHolds s).line = s.line := rfl
@[simp] theorem deriveHolds_trace (s : State) : (deriveHolds s).trace = s.trace := rfl
@[simp] theorem deriveHolds_parser (s : State) : (deriveHolds s).parser = s.parser := rfl
@[simp] theorem deriveHolds_rsp (s : State) : (deriveHolds s).rsp = s.rsp := rfl
@[simp] theorem deriveHolds_nowMs (s : State) : (deriveHolds s).nowMs = s.nowMs := rfl
@[simp] theorem deriveHolds_inputs (s : State) : (deriveHolds s).inputs = s.inputs := rfl
@[simp] theorem deriveHolds_draws (s : State) : (deriveHolds s).draws = s.draws := rfl

/-! ## recompute -/

@[simp] theorem recompute_cfg (s : State) : (recompute s).cfg = s.cfg := rfl
@[simp] theorem recompute_started (s : State) : (recompute s).started = s.started := rfl
@[simp] theorem recompute_powered (s : State) : (recompute s).powered = s.powered := rfl
@[simp] theorem recompute_async (s : State) : (recompute s).async = s.async := rfl
@[simp] theorem recompute_mode (s : State) : (recompute s).mode = s.mode := rfl
@[simp] theorem recompute_idx (s : State) : (recompute s).idx = s.idx := rfl
@[simp] theorem recompute_rgb (s : State) : (recompute s).rgb = s.rgb := rfl
@[simp] theorem recompute_hold (s : State) : (recompute s).hold = s.hold := rfl
@[simp] theorem recompute_speed (s : State) : (recompute s).speed = s.speed := rfl
@[simp] theorem recompute_rate (s : State) : (recompute s).rate = rateOf s.cfg s.speed := rfl
@[simp] theorem recompute_msPerDeg (s : State) : (recompute s).msPerDeg = msPerDegOf s.cfg s.speed := rfl
@[simp] theorem recompute_jumpMs (s : State) : (recompute s).jumpMs = jumpMsOf s.cfg s.speed := rfl
@[simp] theorem recompute_jumpIdx (s : State) : (recompute s).jumpIdx = s.jumpIdx := rfl
@[simp] theorem recompute_lastT (s : State) : (recompute s).lastT = s.lastT := rfl
@[simp] theorem recompute_line (s : State) : (recompute s).line = s.line := rfl
@[simp] theorem recompute_trace (s : State) : (recompute s).trace = s.trace := rfl
@[simp] theorem recompute_parser (s : State) : (recompute s).parser = s.parser := rfl
@[simp] theorem recompute_rsp (s : State) : (recompute s).rsp = s.rsp := rfl
@[simp] theorem recompute_nowMs (s : State) : (recompute s).nowMs = s.nowMs := rfl
@[simp] theorem recompute_inputs (s : State) : (recompute s).inputs = s.inputs := rfl
@[simp] theorem recompute_draws (s : State) : (recompute s).draws = s.draws := rfl

/-! ## writeRgb -/

@[simp] theorem writeRgb_cfg (c : Rgb) (s : State) : (writeRgb c s).cfg = s.cfg := rfl
@[simp] theorem writeRgb_started (c : Rgb) (s : State) : (writeRgb c s).started = s.started := rfl
@[simp] theorem writeRgb_powered (c : Rgb) (s : State) : (writeRgb c s).powered = s.powered := rfl
@[simp] theorem writeRgb_async (c : Rgb) (s : State) : (writeRgb c s).async = s.async := rfl
@[simp] theorem writeRgb_mode (c : Rgb) (s : State) : (writeRgb c s).mode = s.mode := rfl
@[simp] theorem writeRgb_idx (c : Rgb) (s : State) : (writeRgb c s).idx = s.idx := rfl
@[simp] theorem writeRgb_rgb (c : Rgb) (s : State) : (writeRgb c s).rgb = c := rfl
@[simp] theorem writeRgb_hold (c : Rgb) (s : State) : (writeRgb c s).hold = holdsOf s.cfg c := rfl
@[simp] theorem writeRgb_speed (c : Rgb) (s : State) : (writeRgb c s).speed = s.speed := rfl
@[simp] theorem writeRgb_rate (c : Rgb) (s : State) : (writeRgb c s).rate = s.rate := rfl
@[simp] theorem writeRgb_msPerDeg (c : Rgb) (s : State) : (writeRgb c s).msPerDeg = s.msPerDeg := rfl
@[simp] theorem writeRgb_jumpMs (c : Rgb) (s : State) : (writeRgb c s).jumpMs = s.jumpMs := rfl
@[simp] theorem writeRgb_jumpIdx (c : Rgb) (s : State) : (writeRgb c s).jumpIdx = s.jumpIdx := rfl
@[simp] theorem writeRgb_lastT (c : Rgb) (s : State) : (writeRgb c s).lastT = s.lastT := rfl
@[simp] theorem writeRgb_line (c : Rgb) (s : State) : (writeRgb c s).line = s.line := rfl
@[simp] theorem writeRgb_trace (c : Rgb) (s : State) : (writeRgb c s).trace = s.trace := rfl
@[simp] theorem writeRgb_parser (c : Rgb) (s : State) : (writeRgb c s).parser = s.parser := rfl
@[simp] theorem writeRgb_rsp (c : Rgb) (s : State) : (writeRgb c s).rsp = s.rsp := rfl
@[simp] theorem writeRgb_nowMs (c : Rgb) (s : State) : (writeRgb c s).nowMs = s.nowMs := rfl
@[simp] theorem writeRgb_inputs (c : Rgb) (s : State) : (writeRgb c s).inputs = s.inputs := rfl
@[simp] theorem writeRgb_draws (c : Rgb) (s : State) : (writeRgb c s).draws = s.draws := rfl

end Sys2Proof.Machine
end

