-- ==== Sys2Proof/Laws/Ops.lean ====
section
/-! SUPPORT. One lemma for each shared operation that says everything it does to the state, and the small facts about
the constants those lemmas use. Provers cite these instead of unfolding the operations. -/

namespace Sys2Proof.Machine

/-! ## Pulse encoder -/

theorem pulses_zero (w : Nat) : pulses 0 w = [] := rfl

theorem pulses_succ (n w : Nat) : pulses (n + 1) w = [.lo, .hold w, .hi] ++ pulses n w := by
  simp [pulses, List.replicate_succ]

/-- Everything a pulse train does. -/
theorem pulseTrain_eq (n w : Nat) (s : State) :
    pulseTrain n w s =
      { s with
        idx := s.idx + BitVec.ofNat 3 n
        line := if n = 0 then s.line else .hi
        trace := s.trace ++ pulses n w } := by
  induction n generalizing s with
  | zero => simp [pulseTrain, pulses_zero]
  | succ n ih =>
    have hidx : s.idx + 1 + BitVec.ofNat 3 n = s.idx + BitVec.ofNat 3 (n + 1) := by
      rw [BitVec.ofNat_add]; ac_rfl
    simp only [pulseTrain, ih]
    cases n <;> simp_all [drive, holdFor, Level.line, Level.event, pulses_succ]

/-- Everything a resync does. -/
theorem resync_eq (s : State) :
    resync s = { s with idx := 0, line := .hi, trace := s.trace ++ resyncEvents s.cfg } := by
  simp [resync, drive, holdFor, Level.line, Level.event, resyncEvents]

theorem indexDelta_lt (x t : Index) : indexDelta x t < 8 := Nat.mod_lt _ (by decide)

/-- The pulses of SetIndex lead from `x` to the target. -/
theorem add_indexDelta (x t : Index) : x + BitVec.ofNat 3 (indexDelta x t) = t := by
  revert x t; decide

theorem indexDelta_eq_zero (x t : Index) : indexDelta x t = 0 ↔ x = t := by
  revert x t; decide

/-- Everything SetIndex does. -/
theorem setIndex_eq (target : Index) (s : State) :
    setIndex target s =
      { s with
        idx := target
        line := .hi
        trace := s.trace ++ pulses (indexDelta s.idx target) s.cfg.pulseWidthUs ++ [.hi] } := by
  simp [setIndex, pulseTrain_eq, drive, Level.line, Level.event]

/-- Everything UnpoweredRestore does. -/
theorem unpoweredRestore_eq (s : State) :
    unpoweredRestore s =
      { s with
        line := if s.powered then s.line else .lo
        trace := s.trace ++ restoreEvents s.powered } := by
  unfold unpoweredRestore restoreEvents
  split <;> simp [drive, Level.line, Level.event]

/-! ## Sweep -/

/-- Everything the pulses of a sweep do. -/
theorem sweepPulses_eq (ws : List Nat) (s : State) :
    sweepPulses ws s =
      { s with
        idx := s.idx + BitVec.ofNat 3 ws.length
        line := if ws.isEmpty then s.line else .hi
        trace := s.trace ++ (ws.map (pulses 1)).flatten } := by
  induction ws generalizing s with
  | nil => simp [sweepPulses]
  | cons w ws ih =>
    have hidx : s.idx + 1 + BitVec.ofNat 3 ws.length = s.idx + BitVec.ofNat 3 (ws.length + 1) := by
      rw [BitVec.ofNat_add]; ac_rfl
    rw [sweepPulses, pulseTrain_eq, ih]
    have hone : (BitVec.ofNat 3 1) = 1 := rfl
    cases ws with
    | nil => simp
    | cons v vs => simp only [hone, hidx]; simp

/-- The ramp is never empty. -/
theorem sweepWidths_length (c : Config) : (sweepWidths c).length = nSweep c := by
  simp [sweepWidths]

theorem sweepWidths_isEmpty (c : Config) : (sweepWidths c).isEmpty = false := by
  simp [sweepWidths, nSweep]

/-! ## Mixer -/

/-- The events of one LoopRGB from the index `x`. -/
def loopEvents (c : Config) (x : Index) (h : Holds) : List LineEvent :=
  pulses (indexDelta x c.idxRed) c.pulseWidthUs ++ [.hi, .hold h.r] ++
  pulses (indexDelta c.idxRed c.idxGreen) c.pulseWidthUs ++ [.hi, .hold h.g] ++
  pulses (indexDelta c.idxGreen c.idxBlue) c.pulseWidthUs ++ [.hi, .hold h.b]

/-- Everything LoopRGB does. -/
theorem loopRGB_eq (s : State) :
    loopRGB s =
      { s with idx := s.cfg.idxBlue, line := .hi, trace := s.trace ++ loopEvents s.cfg s.idx s.hold } := by
  simp [loopRGB, setIndex_eq, holdFor, loopEvents]

/-- Everything a write of the colour does. -/
theorem writeRgb_eq (c : Rgb) (s : State) : writeRgb c s = { s with rgb := c, hold := holdsOf s.cfg c } := rfl

/-- Everything FadeStep does. -/
theorem fadeStep_eq (s : State) :
    fadeStep s =
      { s with rgb := fadeRgb s.cfg.fadeStep s.rgb, hold := holdsOf s.cfg (fadeRgb s.cfg.fadeStep s.rgb) } := rfl

/-- Everything JumpStep does. -/
theorem jumpStep_eq (s : State) :
    jumpStep s =
      { s with
        jumpIdx := s.jumpIdx + 1
        rgb := vertex (s.jumpIdx + 1)
        hold := holdsOf s.cfg (vertex (s.jumpIdx + 1)) } := rfl

/-! ## Channels -/

theorem satUp_toNat (v : Byte) (s : Nat) : (satUp v s).toNat = min 255 (v.toNat + s) := by
  have := v.isLt
  simp only [satUp, sat, BitVec.toNat_ofNat]
  omega

theorem satDown_toNat (v : Byte) (s : Nat) : (satDown v s).toNat = v.toNat - s := by
  have := v.isLt
  simp only [satDown, sat, BitVec.toNat_ofNat]
  omega

/-! ## Gates -/

/-- The gate of R151 when the block is started. -/
theorem whenStarted_started {s : State} (h : s.started = true) (silent : Byte) (body : State → State) :
    whenStarted silent body s = body s := by simp [whenStarted, h]

/-- The gate of R151 before INIT. -/
theorem whenStarted_stopped {s : State} (h : s.started = false) (silent : Byte) (body : State → State) :
    whenStarted silent body s = reply silent s := by simp [whenStarted, h]

/-! ## Busy time -/

theorem busyTime_append (xs ys : List LineEvent) : busyTime (xs ++ ys) = busyTime xs + busyTime ys := by
  induction xs with
  | nil => simp [busyTime]
  | cons e es ih => cases e <;> simp [busyTime, ih, Nat.add_assoc]

theorem busyTime_pulses (n w : Nat) : busyTime (pulses n w) = n * w := by
  induction n with
  | zero => simp [pulses_zero, busyTime]
  | succ n ih => rw [pulses_succ, busyTime_append, ih]; simp [busyTime, Nat.succ_mul, Nat.add_comm]

end Sys2Proof.Machine
end

