-- ==== Sys2Proof/Laws/PerInstr.lean ====
section
/-! SUPPORT. Statements made for each command: its encoding is a complete frame that begins with its opcode byte. -/

namespace Sys2Proof.Laws.EncodeFrame

/-- The encoding of a command is its opcode byte and `k(op)` parameter bytes, and is a complete frame (R80, R89). -/
def Statement (i : Instr) : Prop :=
  (encode i).head? = some i.opcode.byte ∧ (encode i).length = i.opcode.paramCount + 1 ∧ i.wellFormed = true

theorem init (p0 : Byte) : Statement (.init p0) := by refine ⟨rfl, rfl, ?_⟩; rfl

theorem setColor (r g b : Byte) : Statement (.setColor r g b) := by refine ⟨rfl, rfl, ?_⟩; rfl

theorem getColor : Statement .getColor := by refine ⟨rfl, rfl, ?_⟩; rfl

theorem setMode (id : Byte) : Statement (.setMode id) := by refine ⟨rfl, rfl, ?_⟩; rfl

theorem getMode : Statement .getMode := by refine ⟨rfl, rfl, ?_⟩; rfl

theorem startAsync : Statement .startAsync := by refine ⟨rfl, rfl, ?_⟩; rfl

theorem stopAsync : Statement .stopAsync := by refine ⟨rfl, rfl, ?_⟩; rfl

theorem isAsync : Statement .isAsync := by refine ⟨rfl, rfl, ?_⟩; rfl

theorem setSpeed (value : Byte) : Statement (.setSpeed value) := by refine ⟨rfl, rfl, ?_⟩; rfl

theorem getSpeed : Statement .getSpeed := by refine ⟨rfl, rfl, ?_⟩; rfl

theorem turnOn : Statement .turnOn := by refine ⟨rfl, rfl, ?_⟩; rfl

theorem turnOff : Statement .turnOff := by refine ⟨rfl, rfl, ?_⟩; rfl

theorem isOn : Statement .isOn := by refine ⟨rfl, rfl, ?_⟩; rfl

theorem sendPulse (count : Byte) (widthMicros : Half) : Statement (.sendPulse count widthMicros) := by
  refine ⟨rfl, rfl, ?_⟩; rfl

end Sys2Proof.Laws.EncodeFrame
end

