-- ==== Sys2Proof/Laws/Step.lean ====
section
/-! SUPPORT. What one step does for each next input, and that commands always answer a next state. -/

namespace Sys2Proof.Machine

theorem step_byte {s : State} (hv : s.cfg.Valid) {b : Byte} {arrival now : Time} {rest : List Input}
    (hi : s.inputs = .byte b arrival now :: rest) : step s = byteStep b arrival now rest s := by
  rw [step, if_pos hv, hi]

theorem step_poll {s : State} (hv : s.cfg.Valid) {t : Time} {rest : List Input} (hi : s.inputs = .poll t :: rest) :
    step s = .next (pollStep t rest s) := by
  rw [step, if_pos hv, hi]

theorem step_tick {s : State} (hv : s.cfg.Valid) {now : Time} {rest : List Input}
    (hi : s.inputs = .tick now :: rest) : step s = .next (tickStep now rest s) := by
  rw [step, if_pos hv, hi]

theorem step_rst {s : State} (hv : s.cfg.Valid) {rest : List Input} (hi : s.inputs = .rst :: rest) :
    step s = .next (rstStep rest s) := by
  rw [step, if_pos hv, hi]

theorem step_unscheduled {s : State} (hv : s.cfg.Valid) (hi : s.inputs = []) :
    step s = .next (unscheduledStep s) := by
  rw [step, if_pos hv, hi]

/-- Every command answers a next state: "No exceptions; all failures are boolean returns or silent no-ops" (R220). -/
theorem exec_isNext (i : Instr) (s : State) : ∃ t, exec i s = .next t := by
  cases i <;> exact ⟨_, rfl⟩

/-- Taking a byte answers a next state. -/
theorem byteStep_isNext (b : Byte) (arrival now : Time) (rest : List Input) (s : State) :
    ∃ t, byteStep b arrival now rest s = .next t := by
  unfold byteStep
  split
  · exact ⟨_, rfl⟩
  · unfold portByte
    split
    · unfold idleByte
      split
      · exact ⟨_, rfl⟩
      · split
        · exact exec_isNext _ _
        · exact ⟨_, rfl⟩
    · unfold paramByteArrives
      dsimp only
      split
      · exact exec_isNext _ _
      · exact ⟨_, rfl⟩

/-- An idle port has nothing to time out. -/
theorem expired_idle {t : Time} {s : State} (h : s.parser = .idle) : expired t s = false := by
  simp [expired, h]

/-- A frame is out of time when the timeout has passed since its last byte. -/
theorem expired_collect {t t0 : Time} {op : Opcode} {got : List Byte} {s : State}
    (h : s.parser = .collect op got t0) : expired t s = decide (s.cfg.tCmdTimeoutMs ≤ (t - t0).toNat) := by
  simp [expired, h]

/-- Everything a step can do. `u` is the state the step starts from once the environment's part is done: the input
taken, NOW_MS sampled, a free draw counted. -/
theorem step_cases {s t : State} (h : step s = .next t) :
    ∃ ins n d, ∃ u : State, u = { s with inputs := ins, nowMs := n, draws := d } ∧
      ((∃ op got t0, s.parser = .collect op got t0 ∧ t = timeoutAbort u) ∨
       t = u ∨
       (∃ now, t = tick now u) ∨
       (∃ rest, s.inputs = .rst :: rest ∧ t = rstStep rest s) ∨
       (∃ i, exec i { u with parser := .idle } = .next t) ∨
       (s.parser = .idle ∧ t = reply failByte u) ∨
       (∃ op t0, s.parser = .idle ∧ op.paramCount ≠ 0 ∧ t = { u with parser := .collect op [] t0 }) ∨
       (∃ op got t0 b t1, s.parser = .collect op got t0 ∧ got.length + 1 ≠ op.paramCount ∧
         t = { u with parser := .collect op (got ++ [b]) t1 })) := by
  have hexp : ∀ {t0 : Time} {v : State}, expired t0 v = true → ∃ op got t1, v.parser = .collect op got t1 := by
    intro t0 v hv
    cases hp : v.parser with
    | idle => simp [expired, hp] at hv
    | collect op got t1 => exact ⟨op, got, t1, rfl⟩
  have hv : s.cfg.Valid := by
    by_contra hc
    rw [step, if_neg hc] at h
    cases h
  rcases hi : s.inputs with _ | ⟨x, rest⟩
  · rw [step_unscheduled hv hi] at h
    injection h with h
    refine ⟨s.inputs, Config.freeNowMs s.draws, s.draws + 1, _, rfl, ?_⟩
    unfold unscheduledStep at h
    dsimp only at h
    split at h
    · rename_i he
      obtain ⟨op, got, t1, hp⟩ := hexp he
      exact .inl ⟨op, got, t1, hp, h.symm⟩
    · exact .inr (.inr (.inl ⟨_, h.symm⟩))
  · cases x with
    | poll t0 =>
      rw [step_poll hv hi] at h
      injection h with h
      refine ⟨rest, t0, s.draws, _, rfl, ?_⟩
      unfold pollStep at h
      dsimp only at h
      split at h
      · rename_i he
        obtain ⟨op, got, t1, hp⟩ := hexp he
        exact .inl ⟨op, got, t1, hp, h.symm⟩
      · exact .inr (.inl h.symm)
    | tick now =>
      rw [step_tick hv hi] at h
      injection h with h
      exact ⟨rest, now, s.draws, _, rfl, .inr (.inr (.inl ⟨now, h.symm⟩))⟩
    | rst =>
      rw [step_rst hv hi] at h
      injection h with h
      exact ⟨rest, s.nowMs, s.draws, _, rfl, .inr (.inr (.inr (.inl ⟨rest, rfl, h.symm⟩)))⟩
    | byte b a now =>
      rw [step_byte hv hi] at h
      unfold byteStep at h
      split at h
      · rename_i he
        injection h with h
        obtain ⟨op, got, t1, hp⟩ := hexp he
        exact ⟨s.inputs, s.nowMs, s.draws, _, rfl, .inl ⟨op, got, t1, hp, h.symm⟩⟩
      · refine ⟨rest, now, s.draws, _, rfl, ?_⟩
        unfold portByte at h
        split at h
        · rename_i hp
          unfold idleByte at h
          split at h
          · injection h with h
            exact .inr (.inr (.inr (.inr (.inr (.inl ⟨hp, h.symm⟩)))))
          · split at h
            · exact .inr (.inr (.inr (.inr (.inl ⟨_, h⟩))))
            · rename_i hk
              injection h with h
              exact .inr (.inr (.inr (.inr (.inr (.inr (.inl ⟨_, _, hp, hk, h.symm⟩))))))
        · rename_i op got t1 hp
          unfold paramByteArrives at h
          dsimp only at h
          split at h
          · exact .inr (.inr (.inr (.inr (.inl ⟨_, h⟩))))
          · rename_i hk
            injection h with h
            exact .inr (.inr (.inr (.inr (.inr (.inr (.inr
              ⟨op, got, t1, b, a, hp, by simpa using hk, h.symm⟩))))))

end Sys2Proof.Machine
end

