-- ==== Sys2Proof/Tests/Slice0.lean ====
section
/-! SUPPORT. Tests: what WellFormed refuses, frames written out from the spec, one-step tests from the vectors of
95_test_vectors.md (named V-…, and P-… for a row of a program), and for every obligation with hypotheses a concrete
state that meets them. -/

namespace Sys2Proof.Tests

open Sys2Proof.Machine

/-! ## Helpers -/

/-- The state an outcome goes on with. -/
def after (o : Host.Outcome State Fault Refusal) : Option State :=
  match o with
  | .next t => some t
  | .fault _ => none
  | .refused _ => none

/-- The refusal an outcome ends with. -/
def refusal (o : Host.Outcome State Fault Refusal) : Option Refusal :=
  match o with
  | .next _ => none
  | .fault _ => none
  | .refused r => some r

/-- A started block in mode `m`, powered or not, with index `x`; everything else as after reset. -/
def lit (m : Mode) (powered : Bool) (x : Index) : State :=
  { State.reset with started := true, powered := powered, mode := m, idx := x, line := idleLine true powered }

/-- A powered FADE block of V-ME30: speed 128, red. -/
def fading (lastT : Time) : State :=
  recompute (writeRgb ⟨255, 0, 0⟩ { lit .fade true 3 with speed := 128, lastT := lastT })

/-- A powered JUMP block of V-ME35: speed 255. -/
def jumping : State := recompute { lit .jump true 3 with speed := 255, lastT := 1000 }

/-- `s` with the inputs `ins` to come. -/
def fed (ins : List Input) (s : State) : State := { s with inputs := ins }

/-- A frame of SET_COLOR with two bytes taken, the last at time 0. -/
def partway : State := { lit .solid true 0 with parser := .collect .setColor [10, 20] 0 }

/-- RESYNC of 95_test_vectors.md, in TC. -/
def resyncTC : List LineEvent := [.lo, .hold 1100000, .hi, .hold 1000000]

/-! ## What WellFormed refuses: one ill-formed term for each check -/

theorem smoke_pulseWidth : ¬ { Config.tc with pulseWidthUs := 0 }.Valid := by decide
theorem smoke_holdQuantum : ¬ { Config.tc with holdQuantumUs := 0 }.Valid := by decide
theorem smoke_resetLow : ¬ { Config.tc with tResetLowUs := 1000000 }.Valid := by decide
theorem smoke_resetHigh : ¬ { Config.tc with tResetHighUs := 0 }.Valid := by decide
theorem smoke_sweepOrder : ¬ { Config.tc with sweepHiUs := 199 }.Valid := by decide
theorem smoke_sweepLo : ¬ { Config.tc with sweepLoUs := 0 }.Valid := by decide
theorem smoke_sweepStep : ¬ { Config.tc with sweepStepUs := 0 }.Valid := by decide
theorem smoke_minRate : ¬ { Config.tc with minRate := 0 }.Valid := by decide
theorem smoke_rateOrder : ¬ { Config.tc with maxRate := 5 }.Valid := by decide
theorem smoke_maxRate : ¬ { Config.tc with maxRate := 1001 }.Valid := by decide
theorem smoke_fadeStepLow : ¬ { Config.tc with fadeStep := 0 }.Valid := by decide
theorem smoke_fadeStepHigh : ¬ { Config.tc with fadeStep := 256 }.Valid := by decide
theorem smoke_redGreen : ¬ { Config.tc with idxGreen := 1 }.Valid := by decide
theorem smoke_redBlue : ¬ { Config.tc with idxBlue := 1 }.Valid := by decide
theorem smoke_greenBlue : ¬ { Config.tc with idxBlue := 2 }.Valid := by decide
theorem smoke_timeout : ¬ { Config.tc with tCmdTimeoutMs := 0 }.Valid := by decide

theorem smoke_emptyFrame : frameWellFormed [] = false := by decide
theorem smoke_illegalFrame : frameWellFormed [0x99] = false := by decide
theorem smoke_shortFrame : frameWellFormed [0x10, 10, 20] = false := by decide
theorem smoke_longFrame : frameWellFormed [0x10, 10, 20, 30, 40] = false := by decide
theorem smoke_truncWhole : Stmt.wellFormed (.trunc .setColor [10, 20, 30]) = false := by decide
theorem smoke_truncF0 : Stmt.wellFormed (.trunc .getColor []) = false := by decide
theorem smoke_byteKnown : Stmt.wellFormed (.byte 0x50) = false := by decide

/-- What is inside the checks passes: TC, and a command of each format. -/
theorem smoke_accepted : Config.tc.Valid ∧ Instr.wellFormed (.setMode 255) = true ∧
    Instr.wellFormed (.sendPulse 0 0) = true ∧ Instr.wellFormed .isOn = true ∧
    Stmt.wellFormed (.trunc .setMode []) = true ∧ Stmt.wellFormed (.byte 0x99) = true := by decide

/-! ## Decoding: every command's frame written out from R80, R82 and R83 -/

theorem test_decode_init : decode [0b00000001, 0b00000111] = .ok (.init 7, []) := by rfl
theorem test_decode_setColor : decode [0b00010000, 0x0A, 0x14, 0x1E] = .ok (.setColor 10 20 30, []) := by rfl
theorem test_decode_getColor : decode [0b00010001] = .ok (.getColor, []) := by rfl
theorem test_decode_setMode : decode [0b00100000, 0x03] = .ok (.setMode 3, []) := by rfl
theorem test_decode_getMode : decode [0b00100001] = .ok (.getMode, []) := by rfl
theorem test_decode_startAsync : decode [0b00110000] = .ok (.startAsync, []) := by rfl
theorem test_decode_stopAsync : decode [0b00110001] = .ok (.stopAsync, []) := by rfl
theorem test_decode_isAsync : decode [0b00110010] = .ok (.isAsync, []) := by rfl
theorem test_decode_setSpeed : decode [0b01000000, 0x80] = .ok (.setSpeed 128, []) := by rfl
theorem test_decode_getSpeed : decode [0b01000001] = .ok (.getSpeed, []) := by rfl
theorem test_decode_turnOn : decode [0b01010000] = .ok (.turnOn, []) := by rfl
theorem test_decode_turnOff : decode [0b01010001] = .ok (.turnOff, []) := by rfl
theorem test_decode_isOn : decode [0b01010010] = .ok (.isOn, []) := by rfl
/-- Count first, then the width's high byte: 0x01F4 is 500. -/
theorem test_decode_sendPulse : decode [0b01100000, 0x03, 0x01, 0xF4] = .ok (.sendPulse 3 500, []) := by rfl

theorem test_decode_leaves_rest : decode [0x20, 0x02, 0x50, 0x51] = .ok (.setMode 2, [0x50, 0x51]) := by rfl
theorem test_decode_illegal : decode [0x99, 0x01] = .error (.illegalOpcode 0x99) := by rfl
theorem test_decode_truncated : decode [0x60, 0x03] = .error (.truncated .sendPulse [0x03]) := by rfl
theorem test_decode_none : decode [] = .error .noBytes := by rfl

/-- The table's numbering: the first byte in bits 7..0, the second in bits 15..8. -/
theorem test_tableWord : decodeTableWord 32 0x1E140A10 = some (.setColor 10 20 30) ∧
    decodeTableWord 16 0x0220 = some (.setMode 2) ∧ decodeTableWord 8 0x10 = some (.setColor 0 0 0) ∧
    decodeTableWord 8 0x99 = none := by decide

/-- R92's own examples. -/
theorem test_parse_command : parseStmt "SEND_PULSE 3, 500".toList = some (.command (.sendPulse 3 500)) ∧
    parseStmt "SET_MODE FADE".toList = some (.command (.setMode 2)) ∧
    parseStmt "SET_COLOR 255, 0, 0x80".toList = some (.command (.setColor 255 0 128)) := by decide
theorem test_parse_notFrames : parseStmt "TICK @10".toList = some (.tick 10) ∧
    parseStmt "TRUNC SET_COLOR 10, 20".toList = some (.trunc .setColor [10, 20]) ∧
    parseStmt "BYTE 0x99".toList = some (.byte 0x99) := by decide
/-- A trailing comma is no operand: the model's choice (Log 14). -/
theorem test_parse_trailingComma : parseStmt "SET_SPEED 1,".toList = some (.command (.setSpeed 1)) := by decide
/-- TRUNC's fields are raw parameter bytes, here the count and the width's high byte: the model's choice (Log 14). -/
theorem test_parse_truncInsideWidth : parseStmt "TRUNC SEND_PULSE 3, 1".toList = some (.trunc .sendPulse [3, 1]) ∧
    parseStmt "TRUNC SEND_PULSE 3, 500".toList = none := by decide
theorem test_parse_rejects : parseStmt "SET_SPEED 256".toList = none ∧ parseStmt "HALT".toList = none ∧
    parseStmt "SET_COLOR 1, 2".toList = none := by decide

/-! ## Commands, one step each -/

/-- V-ME1. -/
theorem test_init_powered : (after (exec (.init 1) State.reset)).map (fun t => (t.trace, t.powered)) =
    some (resyncTC, true) := by decide
/-- V-ME2: the line goes LOW and `lastT` takes the clock. -/
theorem test_init_unpowered : (after (exec (.init 0) { State.reset with nowMs := 100 })).map
    (fun t => (t.trace, t.lastT)) = some ([.lo], 100) := by decide

/-- V-CM2. -/
theorem test_setColor : (after (exec (.setColor 255 0 128) (lit .solid true 0))).map (·.hold) =
    some ⟨1020, 0, 512⟩ := by decide
/-- V-CM5: not started. -/
theorem test_setColor_early : (after (exec (.setColor 1 2 3) State.reset)).map (fun t => (t.rgb, t.rsp)) =
    some (⟨0, 0, 0⟩, [0xFF]) := by decide

/-- V-CM6. -/
theorem test_getColor : (after (exec .getColor { lit .fade true 3 with rgb := ⟨255, 5, 0⟩ })).map (·.rsp) =
    some [0xFF, 0xFF, 0x05, 0x00] := by decide

/-- V-ME18: leaving USER while unpowered. -/
theorem test_setMode_leavesUser : (after (exec (.setMode 2) (lit .user false 3))).map
    (fun t => (t.trace, t.mode, t.idx)) = some (resyncTC ++ [.lo], .fade, 0) := by decide
/-- V-ME17: a bad id in USER fails and does not resync. -/
theorem test_setMode_badId : (after (exec (.setMode 5) (lit .user true 3))).map (fun t => (t.trace, t.rsp, t.idx)) =
    some ([], [0x00], 3) := by decide

/-- V-ME19. -/
theorem test_getMode : (after (exec .getMode (lit .fade true 0))).map (·.rsp) = some [0xFF, 0x02] := by decide

/-- V-AS1: the first and the last pulse, and the index. -/
theorem test_startAsync : (after (exec .startAsync (lit .solid true 0))).map
    (fun t => (t.trace.take 3, t.trace.drop 27, t.idx)) =
    some ([.lo, .hold 2000, .hi], [.lo, .hold 200, .hi], 2) := by decide
/-- V-AS6: unpowered. -/
theorem test_startAsync_off : (after (exec .startAsync (lit .solid false 0))).map (fun t => (t.line, t.async)) =
    some (.lo, true) := by decide

/-- V-AS4: not async, and still a resync. -/
theorem test_stopAsync : (after (exec .stopAsync (lit .solid true 6))).map (fun t => (t.trace, t.idx)) =
    some (resyncTC, 0) := by decide

/-- V-AS2. -/
theorem test_isAsync : (after (exec .isAsync { lit .solid true 2 with async := true })).map (·.rsp) =
    some [0xFF, 0x01] := by decide

/-- V-SP1. -/
theorem test_setSpeed : (after (exec (.setSpeed 255) (lit .solid true 0))).map (fun t => (t.msPerDeg, t.jumpMs)) =
    some (2, 120) := by decide
/-- V-SP, speed 1: the floor. -/
theorem test_setSpeed_floor : (after (exec (.setSpeed 1) (lit .solid true 0))).map (fun t => (t.rate, t.jumpMs)) =
    some (7, 8520) := by decide

/-- V-SP2. -/
theorem test_getSpeed : (after (exec .getSpeed (fading 0))).map (·.rsp) = some [0xFF, 0x80] := by decide

/-- V-ME21. -/
theorem test_turnOn : (after (exec .turnOn (lit .solid false 4))).map (fun t => (t.trace, t.idx)) =
    some (resyncTC, 0) := by decide
/-- V-ME22: already on. -/
theorem test_turnOn_again : (after (exec .turnOn (lit .solid true 4))).map (fun t => (t.trace, t.idx)) =
    some ([], 4) := by decide

/-- V-ME23. -/
theorem test_turnOff : (after (exec .turnOff (lit .solid true 4))).map (fun t => (t.trace, t.idx)) =
    some ([.lo], 4) := by decide

/-- V-ME26. -/
theorem test_isOn : (after (exec .isOn (lit .solid false 0))).map (·.rsp) = some [0xFF, 0x00] := by decide

/-- V-PE16: unpowered USER. -/
theorem test_sendPulse : (after (exec (.sendPulse 2 100) (lit .user false 0))).map (fun t => (t.trace, t.idx)) =
    some ([.lo, .hold 100, .hi, .lo, .hold 100, .hi, .lo], 2) := by decide
/-- V-PE17: ignored in SOLID. -/
theorem test_sendPulse_ignored : (after (exec (.sendPulse 3 500) (lit .solid true 0))).map
    (fun t => (t.trace, t.rsp)) = some ([], [0xFF]) := by decide

/-! ## Internal operations and the tick -/

/-- V-PE1: the index wraps. -/
theorem test_pulseTrain : (pulseTrain 3 10 (lit .user true 6)).idx = 1 := by decide
/-- V-PE5: six pulses and the trailing HI. -/
theorem test_setIndex : (setIndex 1 (lit .solid true 3)).trace.length = 19 := by decide
/-- V-PE7: no pulse. -/
theorem test_setIndex_same : (setIndex 5 (lit .solid true 5)).trace = [.hi] := by decide
/-- V-CM8. -/
theorem test_loopRGB : (loopRGB { lit .solid true 0 with hold := ⟨40, 80, 120⟩ }).trace =
    [.lo, .hold 10, .hi, .hi, .hold 40, .lo, .hold 10, .hi, .hi, .hold 80, .lo, .hold 10, .hi, .hi, .hold 120] := by
  decide
/-- V-ME27, V-ME28. -/
theorem test_tick_quiet : (tick 9 (lit .fade false 0)).trace = [.lo] ∧ (tick 9 (lit .user true 0)).trace = [] := by
  decide
/-- V-ME30: one millisecond early. -/
theorem test_tick_fade_early : (tick 4 (fading 0)).rgb = ⟨255, 0, 0⟩ := by decide
/-- V-ME32: one step only, however late; the tick shows the old colour. -/
theorem test_tick_fade_late : (tick 1000000 (fading 0)).rgb = ⟨255, 5, 0⟩ ∧
    LineEvent.hold 1020 ∈ (tick 1000000 (fading 0)).trace ∧ LineEvent.hold 20 ∉ (tick 1000000 (fading 0)).trace := by
  decide
/-- V-ME33: the clock wraps. -/
theorem test_tick_fade_wrap : (tick 0x10 (fading 0xFFFFFFF0)).lastT = 0x10 := by decide
/-- V-ME35, V-ME36. -/
theorem test_tick_jump : (tick 1119 jumping).jumpIdx = 0 ∧ (tick 1120 jumping).jumpIdx = 1 ∧
    (tick 1120 jumping).rgb = ⟨255, 255, 0⟩ := by decide
/-- V-FW1 to V-FW9. -/
theorem test_fade_segments : fadeRgb 5 ⟨255, 253, 0⟩ = ⟨255, 255, 0⟩ ∧ fadeRgb 5 ⟨255, 255, 0⟩ = ⟨250, 255, 0⟩ ∧
    fadeRgb 5 ⟨0, 255, 0⟩ = ⟨0, 255, 5⟩ ∧ fadeRgb 5 ⟨0, 255, 255⟩ = ⟨0, 250, 255⟩ ∧
    fadeRgb 5 ⟨0, 0, 255⟩ = ⟨5, 0, 255⟩ ∧ fadeRgb 5 ⟨255, 0, 3⟩ = ⟨255, 0, 0⟩ := by decide
/-- V-FW10 to V-FW19: the tie-breaks. -/
theorem test_recover : recover 5 ⟨128, 128, 128⟩ = ⟨133, 128, 123⟩ ∧ recover 5 ⟨50, 200, 200⟩ = ⟨45, 205, 200⟩ ∧
    recover 5 ⟨50, 50, 200⟩ = ⟨50, 45, 205⟩ ∧ recover 5 ⟨200, 0, 2⟩ = ⟨205, 0, 2⟩ := by decide
/-- V-FW45. -/
theorem test_jump_wraps : (jumpStep { jumping with jumpIdx := 5 }).rgb = ⟨255, 0, 0⟩ := by decide

/-! ## The port -/

/-- V-EN5: the third byte does not come; the colour is kept and the port is Idle again. -/
theorem test_timeout : (after (step (fed [.poll 100] partway))).map (fun t => (t.rsp, t.rgb, t.parser)) =
    some ([0x00], ⟨0, 0, 0⟩, .idle) := by decide
/-- V-EN8: the late 0x50 waits until the timeout step is done. -/
theorem test_late_byte : (after (step (fed [.byte 0x50 100 100] partway))).map (fun t => (t.rsp, t.inputs)) =
    some ([0x00], [.byte 0x50 100 100]) := by decide
/-- V-EN4: an illegal byte before INIT. -/
theorem test_illegal_byte : (after (step (fed [.byte 0x99 0 0] State.reset))).map (·.rsp) = some [0x00] := by decide
/-- R7. -/
theorem test_refuses_config : refusal (step { State.reset with cfg := { Config.tc with maxRate := 1001 } }) =
    some .configOutOfRange := by decide
/-- P7 row 4: a placed frame is run by the very next step. -/
theorem test_placed_frame : (after (step ((lit .user false 0).withFetchWord 32 0x64000260))).map (·.idx) = some 2 := by
  decide

/-! ## Witnesses: states and operands that meet the hypotheses of the obligations, a clause at a time -/

theorem witness_EncodeInvertsDecode : decode [0x60, 0x03, 0x01, 0xF4, 0x50] = .ok (.sendPulse 3 500, [0x50]) := by rfl

theorem witness_IllegalOpcodeFails_ranges :
    ([0x00, 0x02, 0x0F, 0x12, 0x1F, 0x22, 0x2F, 0x33, 0x3F, 0x42, 0x4F, 0x53, 0x5F, 0x61, 0xFF].all
      fun b => (Opcode.ofByte b).isNone) = true ∧
    ([0x01, 0x10, 0x11, 0x20, 0x21, 0x30, 0x31, 0x32, 0x40, 0x41, 0x50, 0x51, 0x52, 0x60].all
      fun b => (Opcode.ofByte b).isSome) = true := by decide
theorem witness_IllegalOpcodeFails_step : (fed [.byte 0x61 0 0] State.reset).cfg.Valid ∧
    (fed [.byte 0x61 0 0] State.reset).inputs = [.byte 0x61 0 0] ∧
    (fed [.byte 0x61 0 0] State.reset).parser = .idle ∧ Opcode.ofByte 0x61 = none := by decide

theorem witness_FrameLengthFromOpcode_whole : ([] : List Byte).length = Opcode.getColor.paramCount ∧
    ([7] : List Byte).length = Opcode.init.paramCount ∧ ([3, 1, 0xF4] : List Byte).length = Opcode.sendPulse.paramCount := by
  decide
theorem witness_FrameLengthFromOpcode_short : ([] : List Byte).length < Opcode.init.paramCount ∧
    ([3, 1] : List Byte).length < Opcode.sendPulse.paramCount ∧ Opcode.ofByte 0xFF = none := by decide

theorem witness_StepRunsDecodedCommand : (fed [.byte 30 99 99] partway).cfg.Valid ∧
    (fed [.byte 30 99 99] partway).inputs = [.byte 30 99 99] ∧ expired 99 (fed [.byte 30 99 99] partway) = false ∧
    decode ((fed [.byte 30 99 99] partway).parser.bytes ++ [30]) = .ok (.setColor 10 20 30, []) := by
  refine ⟨by decide, by decide, by decide, rfl⟩

theorem witness_StepRunsDecodedCommand_late : (fed [.byte 0x50 100 100] partway).cfg.Valid ∧
    (fed [.byte 0x50 100 100] partway).inputs = [.byte 0x50 100 100] ∧
    expired 100 (fed [.byte 0x50 100 100] partway) = true := by decide

theorem witness_ByteWhileIdle_illegal : (fed [.byte 0 5 6] State.reset).cfg.Valid ∧
    (fed [.byte 0 5 6] State.reset).inputs = [.byte 0 5 6] ∧ (fed [.byte 0 5 6] State.reset).parser = .idle ∧
    Opcode.ofByte 0 = none := by decide
theorem witness_ByteWhileIdle_whole : (fed [.byte 0x52 5 6] State.reset).cfg.Valid ∧
    (fed [.byte 0x52 5 6] State.reset).inputs = [.byte 0x52 5 6] ∧ (fed [.byte 0x52 5 6] State.reset).parser = .idle ∧
    Opcode.ofByte 0x52 = some .isOn ∧ Opcode.isOn.paramCount = 0 := by decide
theorem witness_ByteWhileIdle_first : (fed [.byte 0x01 5 6] State.reset).cfg.Valid ∧
    (fed [.byte 0x01 5 6] State.reset).inputs = [.byte 0x01 5 6] ∧ (fed [.byte 0x01 5 6] State.reset).parser = .idle ∧
    Opcode.ofByte 0x01 = some .init ∧ Opcode.init.paramCount ≠ 0 := by decide

theorem witness_ByteWhileCollecting_last : (fed [.byte 30 99 99] partway).cfg.Valid ∧
    (fed [.byte 30 99 99] partway).inputs = [.byte 30 99 99] ∧
    (fed [.byte 30 99 99] partway).parser = .collect .setColor [10, 20] 0 ∧
    ((99 : Time) - 0).toNat < (fed [.byte 30 99 99] partway).cfg.tCmdTimeoutMs ∧
    ([10, 20] : List Byte).length + 1 = Opcode.setColor.paramCount := by decide
/-- The clock wraps between the two bytes. -/
theorem witness_ByteWhileCollecting_more :
    let s := fed [.byte 10 9 9] { partway with parser := .collect .setColor [] 0xFFFFFFFF }
    s.cfg.Valid ∧ s.inputs = [.byte 10 9 9] ∧ s.parser = .collect .setColor [] 0xFFFFFFFF ∧
      ((9 : Time) - 0xFFFFFFFF).toNat < s.cfg.tCmdTimeoutMs ∧
      ([] : List Byte).length + 1 ≠ Opcode.setColor.paramCount := by decide

theorem witness_TimeoutAborts_poll : (fed [.poll 100] partway).cfg.Valid ∧
    (fed [.poll 100] partway).parser = .collect .setColor [10, 20] 0 ∧
    (fed [.poll 100] partway).cfg.tCmdTimeoutMs ≤ ((100 : Time) - 0).toNat ∧
    (fed [.poll 100] partway).inputs = [.poll 100] := by decide
theorem witness_TimeoutAborts_thenByte : (fed [.poll 100, .byte 0x99 101 101] partway).cfg.Valid ∧
    (fed [.poll 100, .byte 0x99 101 101] partway).cfg.tCmdTimeoutMs ≤ ((100 : Time) - 0).toNat ∧
    (fed [.poll 100, .byte 0x99 101 101] partway).inputs = .poll 100 :: [.byte 0x99 101 101] ∧
    Opcode.ofByte 0x99 = none ∧ Opcode.ofByte 0x20 = some .setMode ∧ Opcode.setMode.paramCount ≠ 0 := by decide
theorem witness_TimeoutAborts_early : (fed [.poll 99] partway).cfg.Valid ∧
    (fed [.poll 99] partway).parser = .collect .setColor [10, 20] 0 ∧
    ((99 : Time) - 0).toNat < (fed [.poll 99] partway).cfg.tCmdTimeoutMs ∧
    (fed [.poll 99] partway).inputs = [.poll 99] := by decide

theorem witness_PacedFrameRunsItsCommand : State.reset.cfg.Valid ∧ State.reset.parser = .idle ∧
    ([(0, 3), (99, 99), (198, 200), (297, 297)] : List (Time × Time)).length = (encode (.setColor 10 20 30)).length ∧
    paced State.reset.cfg [(0, 3), (99, 99), (198, 200), (297, 297)] = true := by decide

theorem witness_FrameLevelViewAgrees : State.reset.cfg.Valid ∧ State.reset.cfg.tCmdTimeoutMs < 2 ^ 32 ∧
    State.reset.parser = .idle ∧ Stmt.wellFormed (.command (.sendPulse 3 500)) = true ∧
    Stmt.wellFormed (.tick 7) = true ∧ Stmt.wellFormed (.trunc .setColor [10, 20]) = true ∧
    Stmt.wellFormed (.byte 0x99) = true := by decide

theorem witness_StepRunsTick : (fed [.tick 5] (fading 0)).cfg.Valid ∧
    (fed [.tick 5] (fading 0)).inputs = [.tick 5] := by decide

theorem witness_RstRestoresResetValues : (fed [.rst] (fading 0)).cfg.Valid ∧ (fed [.rst] (fading 0)).inputs = [.rst] ∧
    ∀ p0, Instr.turnOn ≠ .init p0 := by
  refine ⟨by decide, by decide, ?_⟩
  intro p0 h
  cases h

theorem witness_ResetMeetsInvariants : { Config.tc with maxRate := 1000, fadeStep := 255 }.Valid ∧
    (fed [.rst, .tick 1] jumping).cfg.Valid ∧ (fed [.rst, .tick 1] jumping).inputs = [.rst, .tick 1] := by decide

theorem witness_BadConfigurationRefused_bad :
    ¬ { State.reset with cfg := { Config.tc with maxRate := 1001 } }.cfg.Valid := by decide
theorem witness_BadConfigurationRefused_good : (lit .solid true 0).cfg.Valid := by decide
theorem witness_BadConfigurationRefused_rate : 1000 < { Config.tc with maxRate := 1001 }.maxRate ∧
    { Config.tc with maxRate := 1001 }.minRate ≤ { Config.tc with maxRate := 1001 }.maxRate := by decide

theorem witness_SequencerNeverHalts : (lit .jump true 3).cfg.Valid ∧ (lit .jump true 3).inputs = [] ∧
    (lit .jump true 3).parser = .idle := by decide

theorem witness_CommandsBeforeInit : State.reset.started = false ∧ ∀ p0, Instr.setMode 1 ≠ .init p0 := by
  refine ⟨rfl, ?_⟩
  intro p0 h
  cases h

theorem witness_ResyncEffect : (lit .user true 5).cfg.Valid := by decide

theorem witness_SendPulseEffect_ignored : State.reset.started = false ∧ (lit .fade true 0).mode ≠ .user := by decide
theorem witness_SendPulseEffect_user : (lit .user true 0).started = true ∧ (lit .user true 0).mode = .user ∧
    (lit .user false 0).started = true ∧ (lit .user false 0).mode = .user := by decide

theorem witness_RawPulsesOnlyInUserMode : exec (.sendPulse 3 500) (lit .solid true 0) =
      .next { lit .solid true 0 with rsp := [0xFF] } ∧
    ((lit .solid true 0).mode = .user → ∀ n w, Instr.sendPulse 3 500 ≠ .sendPulse n w) := by
  refine ⟨rfl, ?_⟩
  intro h
  cases h

theorem witness_UnpoweredLineEndsLow_on : (lit .user true 0).powered = true := by decide
theorem witness_UnpoweredLineEndsLow_off : ∃ t, (lit .user false 0).started = true ∧
    (lit .user false 0).powered = false ∧ Instr.stopAsync ≠ .turnOn ∧ exec .stopAsync (lit .user false 0) = .next t ∧
    t.trace ≠ (lit .user false 0).trace := by
  refine ⟨_, rfl, rfl, by decide, rfl, by decide⟩

theorem witness_SetColorEffect : State.reset.started = false ∧ (lit .jump true 3).started = true := by decide

theorem witness_InitEffect_again : (lit .solid true 0).started = true := by decide
theorem witness_InitEffect_first : State.reset.started = false ∧ (1 : Byte) ≠ 0 ∧ (255 : Byte) ≠ 0 ∧ (0 : Byte) = 0 := by
  decide

theorem witness_SetModeEffect_fails : State.reset.started = false ∧ 3 < (4 : Byte).toNat ∧ 3 < (255 : Byte).toNat := by
  decide
theorem witness_SetModeEffect_stays : (lit .solid true 0).started = true ∧ (2 : Byte) = Mode.fade.id ∧
    (lit .solid true 0).mode ≠ .user ∧ (lit .user true 3).started = true ∧ (3 : Byte) = Mode.user.id := by decide
theorem witness_SetModeEffect_leaves : (lit .user false 3).started = true ∧ (0 : Byte) = Mode.solid.id ∧
    (2 : Byte) = Mode.fade.id ∧ (lit .user false 3).mode = .user ∧ Mode.solid ≠ .user ∧ Mode.fade ≠ .user := by decide

theorem witness_TurnOnEffect : State.reset.started = false ∧ (lit .solid true 4).powered = true ∧
    (lit .solid false 4).started = true ∧ (lit .solid false 4).powered = false := by decide

theorem witness_TurnOffEffect : State.reset.started = false ∧ (lit .solid false 4).powered = false ∧
    (lit .solid true 4).started = true ∧ (lit .solid true 4).powered = true := by decide

theorem witness_TickEffect_quiet : State.reset.started = false ∧ (lit .fade false 0).started = true ∧
    (lit .fade false 0).powered = false ∧ (lit .user true 0).powered = true ∧ (lit .user true 0).mode = .user ∧
    (lit .solid true 0).powered = true ∧ (lit .solid true 0).mode = .solid := by decide
/-- V-ME35 and V-ME36: the interval 120, one millisecond before and at it. -/
theorem witness_TickEffect_jump : jumping.started = true ∧ jumping.powered = true ∧ jumping.mode = .jump ∧
    ((1119 : Time).toNat + 2 ^ 32 - jumping.lastT.toNat) % 2 ^ 32 < jumping.jumpMs ∧
    jumping.jumpMs ≤ ((1120 : Time).toNat + 2 ^ 32 - jumping.lastT.toNat) % 2 ^ 32 := by decide
/-- V-ME30 and V-ME31. -/
theorem witness_TickEffect_fade : (fading 0).started = true ∧ (fading 0).powered = true ∧ (fading 0).mode = .fade ∧
    ((4 : Time).toNat + 2 ^ 32 - (fading 0).lastT.toNat) % 2 ^ 32 < (fading 0).msPerDeg ∧
    (fading 0).msPerDeg ≤ ((5 : Time).toNat + 2 ^ 32 - (fading 0).lastT.toNat) % 2 ^ 32 := by decide

theorem witness_SweepWidthsRamp : Config.tc.Valid ∧ 200 ∈ sweepWidths Config.tc ∧
    Config.tc.sweepStepUs ∣ Config.tc.sweepHiUs - Config.tc.sweepLoUs := by decide

theorem witness_StartAsyncEffect : State.reset.started = false ∧ (lit .user false 7).started = true := by decide

theorem witness_StopAsyncEffect : State.reset.started = false ∧ (lit .solid false 2).started = true := by decide

theorem witness_AsyncRoundTripRestoresIndexZero : (lit .fade true 0).started = true ∧
    ∃ u, exec .startAsync (lit .fade true 0) = .next u := by
  refine ⟨rfl, _, rfl⟩

theorem witness_AsyncFlagIsNeverRead : (lit .solid true 0).started = true ∧
    (∃ t, exec .startAsync (lit .solid true 0) = .next t) ∧ (∃ t, exec .stopAsync (lit .solid true 0) = .next t) ∧
    Instr.turnOn ≠ .startAsync ∧ Instr.turnOn ≠ .stopAsync ∧ Instr.turnOn ≠ .isAsync ∧
    ∃ t, exec .turnOn (lit .solid false 0) = .next t := by
  refine ⟨rfl, ⟨_, rfl⟩, ⟨_, rfl⟩, by decide, by decide, by decide, _, rfl⟩

theorem witness_HexagonPartitionedBySegments : onHexagon ⟨255, 0, 0⟩ = true ∧ segmentGuard 0 ⟨255, 0, 0⟩ = true ∧
    onHexagon ⟨255, 1, 1⟩ = false ∧ onHexagon ⟨0, 254, 0⟩ = false := by decide

theorem witness_FadeStepEffect :
    segmentGuard 0 { fading 0 with rgb := ⟨255, 254, 0⟩ }.rgb = true ∧
    segmentGuard 1 { fading 0 with rgb := ⟨1, 255, 0⟩ }.rgb = true ∧
    segmentGuard 2 { fading 0 with rgb := ⟨0, 255, 254⟩ }.rgb = true ∧
    segmentGuard 3 { fading 0 with rgb := ⟨0, 1, 255⟩ }.rgb = true ∧
    segmentGuard 4 { fading 0 with rgb := ⟨254, 0, 255⟩ }.rgb = true ∧
    segmentGuard 5 { fading 0 with rgb := ⟨255, 0, 1⟩ }.rgb = true ∧
    onHexagon { fading 0 with rgb := ⟨255, 255, 255⟩ }.rgb = false := by decide

theorem witness_RecoverEffect : highest ⟨9, 9, 9⟩ = .r ∧ lowest ⟨9, 9, 9⟩ = .b ∧ Channel.g ≠ .r ∧ Channel.g ≠ .b := by
  decide

theorem witness_RecoveryReachesHexagon : 1 ≤ 255 ∧ 255 ≤ 255 ∧ 1 ≤ 1 := by decide

theorem witness_FadeStaysOnHexagon : 1 ≤ 255 ∧ 255 ≤ 255 ∧ 1 ≤ 1 ∧ onHexagon ⟨0, 255, 77⟩ = true := by decide

theorem witness_FadeReachesSegmentEnd : 1 ≤ 7 ∧ 7 ≤ 255 ∧ segmentGuard 5 ⟨255, 0, 1⟩ = true ∧
    segmentGuard 0 ⟨255, 0, 0⟩ = true := by decide

theorem witness_FadeCycleReturns : 1 ≤ 255 ∧ 255 ≤ 255 ∧ 1 ≤ 1 ∧ 0 < crossing 255 ∧ crossing 255 = 1 ∧
    254 < crossing 1 := by decide

theorem witness_RecomputeEffect : (fading 0).cfg.Valid ∧ (lit .solid true 0).speed = 0 ∧ jumping.cfg.Valid ∧
    jumping.speed = 255 := by decide

theorem witness_SetSpeedEffect : State.reset.started = false ∧ jumping.started = true := by decide

theorem witness_IntervalsShrinkWithSpeed : { Config.tc with maxRate := 1000 }.Valid ∧ (0 : Byte).toNat ≤ (255 : Byte).toNat ∧
    (128 : Byte).toNat ≤ (128 : Byte).toNat := by decide

theorem witness_StepKeepsInvariants : StateInv (fed [.tick 5] (fading 0)) ∧
    ∃ t, step (fed [.tick 5] (fading 0)) = .next t := by
  refine ⟨⟨by decide, by decide, by decide, by decide, by decide, trivial, by decide, fun h => absurd h (by decide)⟩, ?_⟩
  rw [step, if_pos (by decide)]
  exact ⟨_, rfl⟩

theorem witness_ModeWrittenOnlyBySetMode : 4 ≤ (4 : Byte).toNat ∧ 4 ≤ (255 : Byte).toNat ∧
    ∃ t, exec (.setMode 1) (lit .solid true 0) = .next t ∧ t.mode ≠ (lit .solid true 0).mode := by
  refine ⟨by decide, by decide, _, rfl, by decide⟩

theorem witness_RegistersHaveOnlyTheirWriters_init : ∃ t, exec (.init 1) { State.reset with nowMs := 5 } = .next t ∧
    t.started ≠ State.reset.started ∧ t.powered ≠ State.reset.powered ∧ t.lastT ≠ State.reset.lastT ∧
    t.line ≠ State.reset.line ∧ t.trace ≠ State.reset.trace := by
  refine ⟨_, rfl, by decide, by decide, by decide, by decide, by decide⟩
theorem witness_RegistersHaveOnlyTheirWriters_set : (∃ t, exec (.setColor 1 2 3) (lit .solid true 0) = .next t ∧
      t.rgb ≠ (lit .solid true 0).rgb) ∧
    (∃ t, exec (.setSpeed 9) (lit .solid true 0) = .next t ∧ t.speed ≠ (lit .solid true 0).speed ∧
      t.rate ≠ (lit .solid true 0).rate) ∧
    ∃ t, exec .startAsync (lit .solid true 0) = .next t ∧ t.async ≠ (lit .solid true 0).async ∧
      t.idx ≠ (lit .solid true 0).idx := by
  refine ⟨⟨_, rfl, by decide⟩, ⟨_, rfl, by decide, by decide⟩, _, rfl, by decide, by decide⟩
theorem witness_RegistersHaveOnlyTheirWriters_mode : ∃ t, exec (.setMode 1) (lit .solid true 0) = .next t ∧
    t.mode ≠ (lit .solid true 0).mode := by
  refine ⟨_, rfl, by decide⟩
theorem witness_RegistersHaveOnlyTheirWriters_tick : (tick 1120 jumping).rgb ≠ jumping.rgb ∧
    (tick 1120 jumping).jumpIdx ≠ jumping.jumpIdx ∧ (tick 1120 jumping).lastT ≠ jumping.lastT := by decide

theorem witness_OutputsAreAppendOnly : (fed [.tick 5] (fading 0)).inputs.head? ≠ some .rst ∧
    ∃ t, step (fed [.tick 5] (fading 0)) = .next t := by
  refine ⟨by decide, ?_⟩
  rw [step, if_pos (by decide)]
  exact ⟨_, rfl⟩

theorem witness_EveryCommandRepliesOnce : (∃ t, exec (.setMode 4) (lit .solid true 0) = .next t) ∧
    (∃ t, exec (.setMode 3) (lit .solid true 0) = .next t) ∧ ∃ t, exec .getColor State.reset = .next t := by
  refine ⟨⟨_, rfl⟩, ⟨_, rfl⟩, _, rfl⟩

theorem witness_PowerStates_on : (∃ t, exec .turnOn (lit .solid false 4) = .next t ∧
      (lit .solid false 4).powered = false ∧ t.powered = true) ∧
    ∃ t, exec (.init 9) State.reset = .next t ∧ State.reset.powered = false ∧ t.powered = true := by
  refine ⟨⟨_, rfl, rfl, rfl⟩, _, rfl, rfl, rfl⟩
theorem witness_PowerStates_off : (lit .fade false 0).started = true ∧ (lit .fade false 0).powered = false ∧
    ∃ t, exec .turnOff (lit .fade true 0) = .next t := by
  refine ⟨rfl, rfl, _, rfl⟩

theorem witness_BeliefFollowsTheLine : (fed [.tick 5] (fading 0)).cfg.Valid ∧
    (fed [.tick 5] (fading 0)).cfg.pulseWidthUs < (fed [.tick 5] (fading 0)).cfg.tResetLowUs ∧
    (fed [.tick 5] (fading 0)).cfg.sweepHiUs < (fed [.tick 5] (fading 0)).cfg.tResetLowUs ∧
    (fed [.tick 5] (fading 0)).inputs.head? ≠ some .rst ∧ ∃ t, step (fed [.tick 5] (fading 0)) = .next t := by
  refine ⟨by decide, by decide, by decide, by decide, ?_⟩
  rw [step, if_pos (by decide)]
  exact ⟨_, rfl⟩

theorem witness_BusyTimeTable_operations : (fading 0).hold = holdsOf (fading 0).cfg (fading 0).rgb ∧
    State.reset.started = false ∧ (lit .fade false 0).powered = false ∧ (lit .user true 0).mode = .user := by decide
theorem witness_BusyTimeTable_commands : (lit .user true 0).cfg.Valid ∧ (lit .user true 0).started = true ∧
    (lit .user true 0).mode = .user ∧ (∃ t, exec (.sendPulse 255 65535) (lit .user true 0) = .next t) ∧
    (∃ t, exec .startAsync (lit .user true 0) = .next t) ∧ (∃ t, exec (.setMode 2) (lit .user true 0) = .next t) ∧
    (2 : Byte).toNat < 3 ∧ (∃ t, exec .turnOn (lit .solid false 0) = .next t) ∧ (lit .solid false 0).powered = false ∧
    ∃ t, exec (.init 255) State.reset = .next t := by
  refine ⟨by decide, rfl, rfl, ⟨_, rfl⟩, ⟨_, rfl⟩, ⟨_, rfl⟩, by decide, ⟨_, rfl⟩, rfl, _, rfl⟩
theorem witness_BusyTimeTable_none : (∃ t, exec (.setMode 3) (lit .user true 0) = .next t) ∧ 3 ≤ (3 : Byte).toNat ∧
    (∃ t, exec (.init 0) State.reset = .next t) ∧ (lit .solid true 0).powered = true ∧
    ∃ t, exec .turnOn (lit .solid true 0) = .next t := by
  refine ⟨⟨_, rfl⟩, by decide, ⟨_, rfl⟩, rfl, _, rfl⟩

theorem witness_TickIsBounded : (fading 0).started = true ∧ (fading 0).powered = true ∧ (fading 0).mode ≠ .user ∧
    (fading 0).hold = holdsOf (fading 0).cfg (fading 0).rgb ∧ Config.tc.Valid := by decide

end Sys2Proof.Tests
end

section
/-! PROOFS. 00_scope.md: the configurations a step refuses (R7), and the interval a rate above 1000 would give. -/

namespace Sys2Proof.Machine

/-- R7: outside the constraints of R6 a step is refused. -/
theorem step_refused {s : State} (hv : ¬ s.cfg.Valid) : step s = .refused .configOutOfRange := by
  rw [step, if_neg hv]

/-- Inside the constraints of R6 a step answers a next state, whatever input comes next. -/
theorem step_isNext {s : State} (hv : s.cfg.Valid) : ∃ t, step s = .next t := by
  cases hi : s.inputs with
  | nil => exact ⟨_, step_unscheduled hv hi⟩
  | cons input rest =>
    cases input with
    | byte b arrival now =>
      rw [step_byte hv hi]
      exact byteStep_isNext b arrival now rest s
    | poll t => exact ⟨_, step_poll hv hi⟩
    | tick now => exact ⟨_, step_tick hv hi⟩
    | rst => exact ⟨_, step_rst hv hi⟩

/-- At full speed the rate is `MAX_RATE` (R211). -/
theorem rateOf_full {c : Config} (h : c.minRate ≤ c.maxRate) : rateOf c 255 = c.maxRate := by
  have hspeed : (255 : Byte).toNat = 255 := rfl
  rw [rateOf, hspeed, Nat.mul_div_cancel_left _ (by decide), Nat.add_sub_cancel' h]

/-- Settles O16: `step` refuses exactly outside R6, and dividing 1000 by a full-speed rate above it gives 0. -/
theorem badConfigurationRefused : Obligations.BadConfigurationRefused := by
  refine ⟨fun s hv => step_refused hv, ?_, ?_⟩
  · intro s hv r hr
    obtain ⟨t, ht⟩ := step_isNext hv
    rw [ht] at hr
    cases hr
  · intro c hmax hle
    rw [msPerDegOf, rateOf_full hle]
    exact Nat.div_eq_of_lt hmax

end Sys2Proof.Machine
end

section
/-! PROOFS. 10_state.md: the mode's one writer (R26), the flag that nothing reads (R25), and the outputs that only
grow (R35). -/

namespace Sys2Proof.Machine

/-! ## Case rules for the gate, the tick and INIT -/

/-- What holds of the silent reply and of the body's result holds behind the gate of R151. -/
theorem whenStarted_elim {P : State → Prop} {silent : Byte} {body : State → State} {s : State}
    (stopped : P (reply silent s)) (started : P (body s)) : P (whenStarted silent body s) := by
  unfold whenStarted
  split
  · exact started
  · exact stopped

/-- The five things a tick can do (R160): nothing, drive LOW, loop, or loop and advance a jump or a fade. -/
theorem tick_elim {P : State → Prop} {now : Time} {s : State} (rest : P s) (low : P (drive .lo s))
    (loop : P (loopRGB s))
    (jump : s.mode = .jump → P { jumpStep (loopRGB s) with lastT := now })
    (fade : s.mode = .fade → P { fadeStep (loopRGB s) with lastT := now }) : P (tick now s) := by
  unfold tick advanceAfter
  split
  · split
    · split
      · exact rest
      · exact loop
      · next hmode => split; exacts [jump hmode, loop]
      · next hmode => split; exacts [fade hmode, loop]
    · exact low
  · exact rest

/-- A second INIT only replies (R150). -/
theorem exec_init_started {s : State} (hs : s.started = true) (p0 : Byte) :
    exec (.init p0) s = .next (reply ackByte s) := by
  rw [exec, execInit, if_pos hs]

/-- The first INIT starts the block and stamps the clock, then powers it up or leaves it off (R150). -/
theorem exec_init_stopped {s : State} (hs : s.started = false) (p0 : Byte) :
    exec (.init p0) s = .next (reply ackByte
      (if startPowered p0 then resync (setPowered true { recompute (setStarted s) with lastT := s.nowMs })
      else drive .lo (setPowered false { recompute (setStarted s) with lastT := s.nowMs }))) := by
  rw [exec, execInit, if_neg (by simp [hs])]
  dsimp only
  split <;> rfl

/-! ## The mode (R26) -/

@[simp] theorem pulseTrain_mode (n w : Nat) (s : State) : (pulseTrain n w s).mode = s.mode := by rw [pulseTrain_eq]
@[simp] theorem sweepPulses_mode (ws : List Nat) (s : State) : (sweepPulses ws s).mode = s.mode := by
  rw [sweepPulses_eq]
@[simp] theorem resync_mode (s : State) : (resync s).mode = s.mode := rfl
@[simp] theorem unpoweredRestore_mode (s : State) : (unpoweredRestore s).mode = s.mode := by rw [unpoweredRestore_eq]
@[simp] theorem loopRGB_mode (s : State) : (loopRGB s).mode = s.mode := by rw [loopRGB_eq]

theorem tick_mode (now : Time) (s : State) : (tick now s).mode = s.mode :=
  tick_elim (P := (·.mode = s.mode)) rfl rfl (loopRGB_mode s) (fun _ => loopRGB_mode s) (fun _ => loopRGB_mode s)

/-- Only SET_MODE writes the mode. -/
theorem exec_mode {i : Instr} {s t : State} (hi : ∀ id, i ≠ .setMode id) (h : exec i s = .next t) :
    t.mode = s.mode := by
  have gate {silent body} (hbody : (body s).mode = s.mode) : (whenStarted silent body s).mode = s.mode :=
    whenStarted_elim (P := (·.mode = s.mode)) rfl hbody
  cases i with
  | setMode id => exact absurd rfl (hi id)
  | getColor | getMode | isAsync | getSpeed | isOn => cases h; rfl
  | init p0 =>
    cases h
    split
    · rfl
    · split <;> rfl
  | setColor r g b => cases h; exact gate rfl
  | setSpeed value => cases h; exact gate rfl
  | startAsync => cases h; exact gate (by simp)
  | stopAsync => cases h; exact gate (by simp)
  | turnOn => cases h; exact gate (by split <;> simp)
  | turnOff => cases h; exact gate (by split <;> simp)
  | sendPulse count width => cases h; exact gate (by split <;> simp)

theorem Mode.ofId_eq_none {id : Byte} (hid : 4 ≤ id.toNat) : Mode.ofId id = none := by
  have hne (k : Byte) (hk : k.toNat < 4) : id ≠ k := by
    rintro rfl
    omega
  rw [Mode.ofId, if_neg (hne 0 (by decide)), if_neg (hne 1 (by decide)), if_neg (hne 2 (by decide)),
    if_neg (hne 3 (by decide))]

theorem Mode.ofId_id (m : Mode) : Mode.ofId m.id = some m := by
  cases m <;> rfl

/-- Settles O52: the ids of R26, and SET_MODE as the mode's one writer. -/
theorem modeWrittenOnlyBySetMode : Obligations.ModeWrittenOnlyBySetMode := by
  refine ⟨⟨rfl, rfl, rfl, rfl⟩, fun _ => Mode.ofId_eq_none, Mode.ofId_id, ?_, tick_mode⟩
  intro i s t h hmode
  by_contra hi
  exact hmode (exec_mode (fun id hid => hi ⟨id, hid⟩) h)

/-! ## The flag that nothing reads (R25)

Each operation commutes with a write of `async`: it neither reads the flag nor writes it. -/

@[simp] theorem unpoweredRestore_async (s : State) : (unpoweredRestore s).async = s.async := by
  rw [unpoweredRestore_eq]

theorem setAsync_setAsync (a b : Bool) (s : State) : setAsync a (setAsync b s) = setAsync a s := rfl

theorem resync_setAsync (a : Bool) (s : State) : resync (setAsync a s) = setAsync a (resync s) := rfl
theorem pulseTrain_setAsync (n w : Nat) (a : Bool) (s : State) :
    pulseTrain n w (setAsync a s) = setAsync a (pulseTrain n w s) := by
  rw [pulseTrain_eq, pulseTrain_eq]; rfl
theorem sweepPulses_setAsync (ws : List Nat) (a : Bool) (s : State) :
    sweepPulses ws (setAsync a s) = setAsync a (sweepPulses ws s) := by
  rw [sweepPulses_eq, sweepPulses_eq]; rfl
theorem unpoweredRestore_setAsync (a : Bool) (s : State) :
    unpoweredRestore (setAsync a s) = setAsync a (unpoweredRestore s) := by
  rw [unpoweredRestore_eq, unpoweredRestore_eq]; rfl
theorem loopRGB_setAsync (a : Bool) (s : State) : loopRGB (setAsync a s) = setAsync a (loopRGB s) := by
  rw [loopRGB_eq, loopRGB_eq]; rfl
theorem jumpStep_setAsync (a : Bool) (s : State) : jumpStep (setAsync a s) = setAsync a (jumpStep s) := rfl
theorem fadeStep_setAsync (a : Bool) (s : State) : fadeStep (setAsync a s) = setAsync a (fadeStep s) := rfl
theorem leaveUser_setAsync (new : Mode) (a : Bool) (s : State) :
    leaveUser new (setAsync a s) = setAsync a (leaveUser new s) := by
  unfold leaveUser
  rw [setAsync_mode, resync_setAsync, unpoweredRestore_setAsync]
  split <;> rfl

theorem whenStarted_setAsync {silent : Byte} {body : State → State} {a : Bool} {s : State}
    (hbody : body (setAsync a s) = setAsync a (body s)) :
    whenStarted silent body (setAsync a s) = setAsync a (whenStarted silent body s) := by
  unfold whenStarted
  rw [setAsync_started, hbody]
  split <;> rfl

theorem advanceAfter_setAsync {advance : State → State} {a : Bool} {s : State}
    (hadvance : advance (setAsync a s) = setAsync a (advance s)) (interval since : Nat) (now : Time) :
    advanceAfter interval since now advance (setAsync a s) =
      setAsync a (advanceAfter interval since now advance s) := by
  unfold advanceAfter
  rw [hadvance]
  split <;> rfl

theorem tick_setAsync (now : Time) (a : Bool) (s : State) : tick now (setAsync a s) = setAsync a (tick now s) := by
  unfold tick
  simp only [setAsync_started, setAsync_powered, setAsync_mode, loopRGB_setAsync]
  split
  · split
    · split
      · rfl
      · rfl
      · exact advanceAfter_setAsync (jumpStep_setAsync a _) _ _ _
      · exact advanceAfter_setAsync (fadeStep_setAsync a _) _ _ _
    · rfl
  · rfl

/-- No command but the three of the desynchroniser reads `async` or writes it. -/
theorem exec_setAsync {i : Instr} (hstart : i ≠ .startAsync) (hstop : i ≠ .stopAsync) (his : i ≠ .isAsync)
    {s t : State} (h : exec i s = .next t) (a : Bool) : exec i (setAsync a s) = .next (setAsync a t) := by
  have gate {silent body} (hbody : body (setAsync a s) = setAsync a (body s)) :
      Host.Outcome.next (φ := Fault) (ρ := Refusal) (whenStarted silent body (setAsync a s)) =
        .next (setAsync a (whenStarted silent body s)) := congrArg _ (whenStarted_setAsync hbody)
  cases i with
  | startAsync => exact absurd rfl hstart
  | stopAsync => exact absurd rfl hstop
  | isAsync => exact absurd rfl his
  | getColor | getMode | getSpeed | isOn => cases h; rfl
  | init p0 =>
    cases hs : s.started with
    | true =>
      rw [exec_init_started hs] at h
      cases h
      exact exec_init_started (s := setAsync a s) hs p0
    | false =>
      rw [exec_init_stopped hs] at h
      cases h
      rw [exec_init_stopped (s := setAsync a s) hs]
      split <;> rfl
  | setColor r g b => cases h; exact gate rfl
  | setSpeed value => cases h; exact gate rfl
  | setMode id =>
    cases h
    refine gate ?_
    split
    · rfl
    · rw [leaveUser_setAsync]; rfl
  | turnOn =>
    cases h
    refine gate ?_
    rw [setAsync_powered]
    split <;> rfl
  | turnOff =>
    cases h
    refine gate ?_
    rw [setAsync_powered]
    split <;> rfl
  | sendPulse count width =>
    cases h
    refine gate ?_
    rw [setAsync_mode, pulseTrain_setAsync, unpoweredRestore_setAsync]
    split <;> rfl

/-- What commutes with writing back the flag's own value leaves the flag as it is. -/
theorem async_eq_of_eq_setAsync {s t : State} (h : t = setAsync s.async t) : t.async = s.async := by
  rw [h, setAsync_async]

theorem exec_async {i : Instr} (hstart : i ≠ .startAsync) (hstop : i ≠ .stopAsync) {s t : State}
    (h : exec i s = .next t) : t.async = s.async := by
  by_cases his : i = .isAsync
  · subst his
    cases h
    rfl
  · have hcommutes : exec i s = .next (setAsync s.async t) := exec_setAsync hstart hstop his h s.async
    rw [h] at hcommutes
    injection hcommutes with ht
    exact async_eq_of_eq_setAsync ht

theorem tick_async (now : Time) (s : State) : (tick now s).async = s.async :=
  async_eq_of_eq_setAsync (tick_setAsync now s.async s)

theorem exec_startAsync_started {s : State} (hs : s.started = true) :
    exec .startAsync s = .next (reply ackByte (unpoweredRestore (setAsync true
      (sweepPulses (sweepWidths s.cfg) s)))) :=
  congrArg _ (whenStarted_started hs _ _)

theorem exec_stopAsync_started {s : State} (hs : s.started = true) :
    exec .stopAsync s = .next (reply ackByte (unpoweredRestore (setAsync false (resync s)))) :=
  congrArg _ (whenStarted_started hs _ _)

/-- START_ASYNC and STOP_ASYNC overwrite `async`, so its old value does not show in what they leave. -/
theorem exec_overwrites_async {i : Instr} (hi : i = .startAsync ∨ i = .stopAsync) {s : State}
    (hs : s.started = true) (a : Bool) : exec i (setAsync a s) = exec i s := by
  have hs' : (setAsync a s).started = true := hs
  rcases hi with rfl | rfl
  · rw [exec_startAsync_started hs', exec_startAsync_started hs, setAsync_cfg, sweepPulses_setAsync, setAsync_setAsync]
  · rw [exec_stopAsync_started hs', exec_stopAsync_started hs, resync_setAsync, setAsync_setAsync]

/-- Settles O38: `async` has its two writers, and only IS_ASYNC tells its values apart. -/
theorem asyncFlagIsNeverRead : Obligations.AsyncFlagIsNeverRead := by
  refine ⟨?_, ?_, fun i s t hstart hstop => exec_async hstart hstop,
    fun i s t a hstart hstop his h => exec_setAsync hstart hstop his h a, ?_,
    fun now s a => ⟨tick_async now s, tick_setAsync now a s⟩⟩
  · intro s t hs h
    rw [exec_startAsync_started hs] at h
    cases h
    simp
  · intro s t hs h
    rw [exec_stopAsync_started hs] at h
    cases h
    simp
  · intro i s t a hi hs h
    exact (exec_overwrites_async hi hs a).trans h

/-! ## The outputs (R35) -/

/-- The trace and the reply stream of `t` continue those of `s`. -/
def OutputsExtend (s t : State) : Prop := s.trace <+: t.trace ∧ s.rsp <+: t.rsp

namespace OutputsExtend

theorem refl (s : State) : OutputsExtend s s := ⟨List.prefix_refl _, List.prefix_refl _⟩

variable {s t : State}

theorem trans {u : State} (h : OutputsExtend s t) (h' : OutputsExtend t u) : OutputsExtend s u :=
  ⟨h.1.trans h'.1, h.2.trans h'.2⟩

/-- What appends to the trace and leaves the reply stream extends the outputs. -/
theorem append_trace (h : OutputsExtend s t) {u : State} {events : List LineEvent}
    (htrace : u.trace = t.trace ++ events) (hrsp : u.rsp = t.rsp) : OutputsExtend s u :=
  ⟨htrace ▸ h.1.trans (List.prefix_append _ _), hrsp ▸ h.2⟩

/-- What appends to the reply stream and leaves the trace extends the outputs. -/
theorem append_rsp (h : OutputsExtend s t) {u : State} {bytes : List Byte}
    (htrace : u.trace = t.trace) (hrsp : u.rsp = t.rsp ++ bytes) : OutputsExtend s u :=
  ⟨htrace ▸ h.1, hrsp ▸ h.2.trans (List.prefix_append _ _)⟩

theorem drive (h : OutputsExtend s t) (l : Level) : OutputsExtend s (drive l t) := h.append_trace rfl rfl

theorem reply (h : OutputsExtend s t) (b : Byte) : OutputsExtend s (reply b t) := h.append_rsp rfl rfl

theorem replyData (h : OutputsExtend s t) (data : List Byte) : OutputsExtend s (replyData data t) :=
  h.append_rsp rfl rfl

theorem setPowered (h : OutputsExtend s t) (v : Bool) : OutputsExtend s (setPowered v t) := h

theorem setAsync (h : OutputsExtend s t) (v : Bool) : OutputsExtend s (setAsync v t) := h

theorem pulseTrain (h : OutputsExtend s t) (n w : Nat) : OutputsExtend s (pulseTrain n w t) := by
  rw [pulseTrain_eq]; exact h.append_trace rfl rfl

theorem sweepPulses (h : OutputsExtend s t) (ws : List Nat) : OutputsExtend s (sweepPulses ws t) := by
  rw [sweepPulses_eq]; exact h.append_trace rfl rfl

theorem resync (h : OutputsExtend s t) : OutputsExtend s (resync t) := by
  rw [resync_eq]; exact h.append_trace rfl rfl

theorem unpoweredRestore (h : OutputsExtend s t) : OutputsExtend s (unpoweredRestore t) := by
  rw [unpoweredRestore_eq]; exact h.append_trace rfl rfl

theorem loopRGB (h : OutputsExtend s t) : OutputsExtend s (loopRGB t) := by
  rw [loopRGB_eq]; exact h.append_trace rfl rfl

theorem leaveUser (h : OutputsExtend s t) (new : Mode) : OutputsExtend s (leaveUser new t) := by
  unfold Machine.leaveUser
  split
  · exact h.resync.unpoweredRestore
  · exact h

theorem whenStarted {silent : Byte} {body : State → State} (hbody : OutputsExtend s (body s)) :
    OutputsExtend s (whenStarted silent body s) :=
  whenStarted_elim ((refl s).reply silent) hbody

end OutputsExtend

theorem tick_outputsExtend (now : Time) (s : State) : OutputsExtend s (tick now s) :=
  have loop : OutputsExtend s (loopRGB s) := (OutputsExtend.refl s).loopRGB
  tick_elim (.refl s) ((OutputsExtend.refl s).drive .lo) loop (fun _ => loop) (fun _ => loop)

theorem exec_outputsExtend {i : Instr} {s t : State} (h : exec i s = .next t) : OutputsExtend s t := by
  have same : OutputsExtend s s := .refl s
  cases i with
  | getColor | getMode | isAsync | getSpeed | isOn => cases h; exact same.replyData _
  | init p0 =>
    cases h
    split
    · exact same.reply _
    · dsimp only
      split
      · exact OutputsExtend.reply (.resync same) _
      · exact OutputsExtend.reply (.drive same _) _
  | setColor r g b => cases h; exact .whenStarted (same.reply _)
  | setSpeed value => cases h; exact .whenStarted (same.reply _)
  | setMode id =>
    cases h
    refine .whenStarted ?_
    split
    · exact same.reply _
    · exact OutputsExtend.reply (same.leaveUser _) _
  | startAsync => cases h; exact .whenStarted (((same.sweepPulses _).setAsync _).unpoweredRestore.reply _)
  | stopAsync => cases h; exact .whenStarted ((same.resync.setAsync _).unpoweredRestore.reply _)
  | turnOn =>
    cases h
    refine .whenStarted ?_
    split
    · exact same.reply _
    · exact (same.setPowered _).resync.reply _
  | turnOff =>
    cases h
    refine .whenStarted ?_
    split
    · exact ((same.setPowered _).drive _).reply _
    · exact same.reply _
  | sendPulse count width =>
    cases h
    refine .whenStarted ?_
    split
    · exact (same.pulseTrain _ _).unpoweredRestore.reply _
    · exact same.reply _

/-- A step that takes no RST extends the outputs. -/
theorem step_outputsExtend {s t : State} (h : step s = .next t) (hrst : s.inputs.head? ≠ some .rst) :
    OutputsExtend s t := by
  obtain ⟨_, _, _, u, hu, hcases⟩ := step_cases h
  have taken : OutputsExtend s u := hu ▸ OutputsExtend.refl s
  rcases hcases with ⟨_, _, _, -, rfl⟩ | rfl | ⟨now, rfl⟩ | ⟨rest, hi, -⟩ | ⟨i, hexec⟩ | ⟨-, rfl⟩ |
    ⟨_, _, -, -, rfl⟩ | ⟨_, _, _, _, _, -, -, rfl⟩
  · exact taken.reply failByte
  · exact taken
  · exact taken.trans (tick_outputsExtend now u)
  · exact absurd (by rw [hi]; rfl) hrst
  · exact taken.trans (exec_outputsExtend (s := { u with parser := .idle }) hexec)
  · exact taken.reply failByte
  · exact taken
  · exact taken

/-- Settles O54: outside RST every step only appends. -/
theorem outputsAreAppendOnly : Obligations.OutputsAreAppendOnly :=
  fun _ _ h hrst => step_outputsExtend h hrst

end Sys2Proof.Machine
end

section
/-! PROOFS. 30_encoding.md: the opcode map and the frame lengths (R82, R87, R89), the operands (R83), and what a byte or
a look at the clock does to the port (R84 to R86). -/

namespace Sys2Proof

/-- A byte is illegal exactly when it is no command's opcode byte, that is, when it lies between those of R82's table
(R87). -/
theorem Opcode.ofByte_eq_none_iff_ranges (b : Byte) : Opcode.ofByte b = none ↔
    b.toNat = 0 ∨ (0x02 ≤ b.toNat ∧ b.toNat ≤ 0x0F) ∨ (0x12 ≤ b.toNat ∧ b.toNat ≤ 0x1F) ∨
    (0x22 ≤ b.toNat ∧ b.toNat ≤ 0x2F) ∨ (0x33 ≤ b.toNat ∧ b.toNat ≤ 0x3F) ∨
    (0x42 ≤ b.toNat ∧ b.toNat ≤ 0x4F) ∨ (0x53 ≤ b.toNat ∧ b.toNat ≤ 0x5F) ∨ 0x61 ≤ b.toNat := by
  simp only [Opcode.ofByte, Opcode.all, List.find?_eq_none, List.forall_mem_cons, beq_iff_eq, Opcode.byte,
    ← BitVec.toNat_inj, BitVec.reduceToNat, List.not_mem_nil, false_imp_iff, implies_true, and_true]
  omega

/-- 242 of the 256 byte values are illegal (R87), counted a quarter of them at a time. -/
theorem Opcode.ofByte_none_count :
    ((List.range 256).filter fun n => (Opcode.ofByte (BitVec.ofNat 8 n)).isNone).length = 242 := by
  rw [← List.countP_eq_length_filter, show 256 = 64 + 64 + 64 + 64 from rfl]
  simp only [List.range_add, List.countP_append]
  decide

/-- A single byte decodes to a command exactly when its opcode takes no parameter bytes. -/
theorem decode_singleton_iff {b : Byte} {i : Instr} :
    decode [b] = .ok (i, []) ↔ ∃ op, Opcode.ofByte b = some op ∧ op.paramCount = 0 ∧ assemble op [] = i := by
  cases hop : Opcode.ofByte b with
  | none => simp [decode_illegal hop]
  | some op =>
    obtain rfl := Opcode.byte_of_ofByte hop
    by_cases hk : op.paramCount = 0
    · have hd : decode [op.byte] = .ok (assemble op [], []) := decode_whole (ps := []) hk.symm []
      simp [hd, hk]
    · simp [decode_short (got := []) (Nat.pos_of_ne_zero hk), hk]

/-- The width of R83 is `p1 × 256 + p2`. -/
theorem bigEndian16_toNat (hi lo : Byte) : (bigEndian16 hi lo).toNat = hi.toNat * 256 + lo.toNat := by
  rw [bigEndian16, BitVec.toNat_append, ← Nat.shiftLeft_add_eq_or_of_lt lo.isLt, Nat.shiftLeft_eq]

/-- `k(op)` by name (R82, R89). -/
theorem Opcode.paramCount_eq (op : Opcode) : op.paramCount =
    if op = .init ∨ op = .setMode ∨ op = .setSpeed then 1
    else if op = .setColor ∨ op = .sendPulse then 3 else 0 := by
  cases op <;> rfl

end Sys2Proof

namespace Sys2Proof.Machine

/-! ## What the port does with one input -/

/-- Setting an idle parser idle changes nothing. -/
theorem setIdle_of_idle {s : State} (h : s.parser = .idle) : { s with parser := .idle } = s := by
  rw [← h]

section Byte

variable {s : State} {b : Byte} {t now : Time} {rest : List Input} (hv : s.cfg.Valid)
  (hi : s.inputs = .byte b t now :: rest)
include hv hi

/-- A byte that no timeout precedes is taken from the port by the step. -/
theorem step_byte_inTime (he : expired t s = false) :
    step s = portByte b t { s with inputs := rest, nowMs := now } := by
  rw [step_byte hv hi, byteStep, he]
  rfl

/-- While Idle, a byte is taken as an opcode byte (R84). -/
theorem step_byte_idle (hp : s.parser = .idle) :
    step s = idleByte b t { s with inputs := rest, nowMs := now } := by
  rw [step_byte_inTime hv hi (expired_idle hp), portByte, hp]

/-- An illegal opcode byte gets the failure reply (R87). -/
theorem step_idle_illegal (hp : s.parser = .idle) (hb : Opcode.ofByte b = none) :
    step s = .next { s with inputs := rest, nowMs := now, rsp := s.rsp ++ [0x00] } := by
  rw [step_byte_idle hv hi hp, idleByte, hb]
  rfl

/-- An opcode byte that is a whole frame runs its command (R84). -/
theorem step_idle_whole (hp : s.parser = .idle) {i : Instr} (hd : decode [b] = .ok (i, [])) :
    step s = exec i { s with inputs := rest, nowMs := now } := by
  obtain ⟨op, hop, hk, rfl⟩ := decode_singleton_iff.mp hd
  rw [step_byte_idle hv hi hp, idleByte, hop]
  dsimp only
  rw [if_pos hk, runFrame]
  exact congrArg (exec _) (setIdle_of_idle (s := { s with inputs := rest, nowMs := now }) hp)

/-- An opcode byte with parameters to come begins a frame, stamped with its arrival time (R84). -/
theorem step_idle_first (hp : s.parser = .idle) {op : Opcode} (hop : Opcode.ofByte b = some op)
    (hk : op.paramCount ≠ 0) :
    step s = .next { s with inputs := rest, nowMs := now, parser := .collect op [] t } := by
  rw [step_byte_idle hv hi hp, idleByte, hop]
  exact if_neg hk

/-- While collecting, a byte less than the timeout after the last one is a parameter byte (R85). -/
theorem step_byte_collect {op : Opcode} {got : List Byte} {t0 : Time} (hp : s.parser = .collect op got t0)
    (ht : (t - t0).toNat < s.cfg.tCmdTimeoutMs) :
    step s = paramByteArrives op got b t { s with inputs := rest, nowMs := now } := by
  have he : expired t s = false := by simpa [expired_collect hp] using ht
  rw [step_byte_inTime hv hi he, portByte, hp]

/-- The last parameter byte runs the command of the whole frame (R85). -/
theorem step_collect_last {op : Opcode} {got : List Byte} {t0 : Time} (hp : s.parser = .collect op got t0)
    (ht : (t - t0).toNat < s.cfg.tCmdTimeoutMs) (hk : (got ++ [b]).length = op.paramCount) :
    step s = exec (assemble op (got ++ [b])) { s with inputs := rest, nowMs := now, parser := .idle } := by
  rw [step_byte_collect hv hi hp ht]
  exact if_pos hk

/-- A parameter byte before the last is kept, and the timeout runs from its arrival (R85). -/
theorem step_collect_more {op : Opcode} {got : List Byte} {t0 : Time} (hp : s.parser = .collect op got t0)
    (ht : (t - t0).toNat < s.cfg.tCmdTimeoutMs) (hk : (got ++ [b]).length ≠ op.paramCount) :
    step s = .next { s with inputs := rest, nowMs := now, parser := .collect op (got ++ [b]) t } := by
  rw [step_byte_collect hv hi hp ht]
  exact if_neg hk

end Byte

section Poll

variable {s : State} {op : Opcode} {got : List Byte} {t0 t : Time} {rest : List Input} (hv : s.cfg.Valid)
  (hi : s.inputs = .poll t :: rest) (hp : s.parser = .collect op got t0)
include hv hi hp

/-- A look at the clock when the frame is out of time aborts it (R86). -/
theorem step_poll_late (ht : s.cfg.tCmdTimeoutMs ≤ (t - t0).toNat) :
    step s = .next { s with inputs := rest, nowMs := t, parser := .idle, rsp := s.rsp ++ [0x00] } := by
  have he : expired t s = true := by rw [expired_collect hp, decide_eq_true ht]
  rw [step_poll hv hi]
  exact congrArg _ (if_pos he)

/-- A look at the clock before that only samples it (R86). -/
theorem step_poll_early (ht : (t - t0).toNat < s.cfg.tCmdTimeoutMs) :
    step s = .next { s with inputs := rest, nowMs := t } := by
  have he : ¬ expired t s = true := by simpa [expired_collect hp] using ht
  rw [step_poll hv hi]
  exact congrArg _ (if_neg he)

end Poll

/-! ## The obligations -/

/-- Settles O4: the opcode map's gaps and their count, and the Idle port's answer to an illegal byte. -/
theorem illegalOpcodeFails : Obligations.IllegalOpcodeFails :=
  ⟨Opcode.ofByte_eq_none_iff_ranges, Opcode.ofByte_none_count,
   fun _ _ _ _ _ hv hi hp hb => step_idle_illegal hv hi hp hb⟩

/-- Settles O5: the count by name, and the decoder on whole, short and illegal frames whatever the parameter bytes. -/
theorem frameLengthFromOpcode : Obligations.FrameLengthFromOpcode :=
  ⟨Opcode.paramCount_eq,
   fun op ps rest hlen => ⟨assemble op ps, opcode_assemble op ps, decode_whole hlen rest⟩,
   fun _ _ hlt => decode_short hlt,
   fun _ rest hb => decode_illegal hb rest⟩

/-- Settles O6: each row is a whole frame, so its operands are those `assemble` reads. -/
theorem operandsFromParameterBytes : Obligations.OperandsFromParameterBytes := fun p0 p1 p2 rest =>
  ⟨decode_whole (op := .init) (ps := [p0]) rfl rest,
   bne_iff_ne,
   decode_whole (op := .setColor) (ps := [p0, p1, p2]) rfl rest,
   decode_whole (op := .setMode) (ps := [p0]) rfl rest,
   decode_whole (op := .setSpeed) (ps := [p0]) rfl rest,
   bigEndian16 p1 p2, decode_whole (op := .sendPulse) (ps := [p0, p1, p2]) rfl rest, bigEndian16_toNat p1 p2⟩

/-- Settles O8: R84's three cases of an opcode byte. -/
theorem byteWhileIdle : Obligations.ByteWhileIdle := by
  intro s b t now rest hv hi hp
  refine ⟨fun hb => step_idle_illegal hv hi hp hb, fun op hop hk => ?_,
    fun op hop hk => step_idle_first hv hi hp hop hk⟩
  have hd : decode [b] = .ok (assemble op [], []) := decode_singleton_iff.mpr ⟨op, hop, hk, rfl⟩
  exact ⟨_, hd, step_idle_whole hv hi hp hd⟩

/-- Settles O9: R85's two cases, by whether the byte completes the frame. -/
theorem byteWhileCollecting : Obligations.ByteWhileCollecting := by
  intro s op got t0 t now b rest hv hi hp ht
  have hlen : (got ++ [b]).length = got.length + 1 := List.length_append
  rw [← hlen]
  refine ⟨fun hk => ⟨assemble op (got ++ [b]), ?_, step_collect_last hv hi hp ht hk⟩,
    fun hk => step_collect_more hv hi hp ht hk⟩
  simpa using decode_whole hk []

/-- Settles O10: the abort leaves a valid, Idle state, so a byte after it meets R84's three cases. -/
theorem timeoutAborts : Obligations.TimeoutAborts := by
  intro s op got t0 t rest hv hp
  refine ⟨fun ht hi => ?_, fun ht hi => step_poll_early hv hi hp ht⟩
  obtain ⟨u, hu⟩ : ∃ u : State,
      u = { s with inputs := rest, nowMs := t, parser := .idle, rsp := s.rsp ++ [0x00] } := ⟨_, rfl⟩
  refine ⟨u, hu, hu ▸ step_poll_late hv hi hp ht, fun b t' now rest' hrest => ?_⟩
  have hvu : u.cfg.Valid := by rw [hu]; exact hv
  have hiu : u.inputs = .byte b t' now :: rest' := by rw [hu, hrest]
  have hpu : u.parser = .idle := by rw [hu]
  exact ⟨fun hb => step_idle_illegal hvu hiu hpu hb, fun _ hd => step_idle_whole hvu hiu hpu hd,
    fun _ hop hk => step_idle_first hvu hiu hpu hop hk⟩

end Sys2Proof.Machine
end

section
/-! PROOFS. 40_pulse_encoder.md: pulse trains (R110), resync (R112), SetIndex (R113), SEND_PULSE (R114), and the line
that ends LOW while unpowered (R116). -/

namespace Sys2Proof.Machine

/-! ## The operations of the encoder (R110, R112, R113) -/

/-- The index advances in lock-step with the pulses, modulo 8 (R110). -/
theorem pulseTrain_idx_toNat (n w : Nat) (s : State) :
    (pulseTrain n w s).idx.toNat = (s.idx.toNat + n) % 8 := by
  rw [pulseTrain_eq, BitVec.toNat_add, BitVec.toNat_ofNat, Nat.add_mod_mod]

/-- Settles O19: the whole effect of a pulse train, with the index read as a number. -/
theorem pulseTrainEffect : Obligations.PulseTrainEffect := by
  intro n w s
  refine ⟨?_, pulseTrain_idx_toNat n w s, ?_, _, _, _, pulseTrain_eq n w s⟩
  · rw [pulseTrain_eq, pulses]
  · rw [pulseTrain_eq]

/-- Settles O20: the whole effect of a resync, with R6's bound on its LOW hold. -/
theorem resyncEffect : Obligations.ResyncEffect := by
  intro s
  refine ⟨?_, fun hv => hv.reset_low, ?_, ?_, _, _, _, resync_eq s⟩
  · rw [resync_eq, resyncEvents]
  · rw [resync_eq]
  · rw [resync_eq]

/-- Settles O21: SetIndex emits `indexDelta` pulses, fewer than 8 and none exactly on the target. -/
theorem setIndexEffect : Obligations.SetIndexEffect := by
  intro target s
  refine ⟨indexDelta s.idx target, rfl, Nat.le_of_lt_succ (indexDelta_lt s.idx target),
    (indexDelta_eq_zero s.idx target).trans eq_comm, ?_, ?_, ?_, _, _, _, setIndex_eq target s⟩
  · rw [setIndex_eq, pulses]
  · rw [setIndex_eq]
  · rw [setIndex_eq]

/-! ## SEND_PULSE (R114) -/

/-- Before INIT and outside USER mode SEND_PULSE only acknowledges. -/
theorem exec_sendPulse_ignored {s : State} (h : s.started = false ∨ s.mode ≠ .user) (count : Byte) (width : Half) :
    exec (.sendPulse count width) s = .next (reply ackByte s) := by
  rw [exec, execSendPulse]
  cases hs : s.started with
  | false => rw [whenStarted_stopped hs]
  | true =>
    have hmode : s.mode ≠ .user := h.resolve_left (by simp [hs])
    rw [whenStarted_started hs, if_neg hmode]

/-- In USER mode SEND_PULSE runs the train, restores the unpowered line and acknowledges. -/
theorem exec_sendPulse_user {s : State} (hs : s.started = true) (hmode : s.mode = .user) (count : Byte)
    (width : Half) :
    exec (.sendPulse count width) s =
      .next (reply ackByte (unpoweredRestore (pulseTrain count.toNat width.toNat s))) := by
  rw [exec, execSendPulse, whenStarted_started hs, if_pos hmode]

/-- Settles O22: the two cases of R114, the train and the restore each by its whole effect. -/
theorem sendPulseEffect : Obligations.SendPulseEffect := by
  intro count width s
  refine ⟨fun h => exec_sendPulse_ignored h count width, fun hs hmode => ?_⟩
  rw [exec_sendPulse_user hs hmode, unpoweredRestore_eq, pulseTrain_eq]
  rfl

/-! ## The unpowered line (R116) -/

@[simp] theorem pulseTrain_powered (n w : Nat) (s : State) : (pulseTrain n w s).powered = s.powered := by
  rw [pulseTrain_eq]
@[simp] theorem sweepPulses_powered (ws : List Nat) (s : State) : (sweepPulses ws s).powered = s.powered := by
  rw [sweepPulses_eq]
@[simp] theorem resync_powered (s : State) : (resync s).powered = s.powered := by rw [resync_eq]

/-- The line stands LOW and the event that put it there is the last one. -/
def EndsLow (t : State) : Prop := t.line = .lo ∧ t.trace.getLast? = some .lo

theorem drive_lo_endsLow (s : State) : EndsLow (drive .lo s) := ⟨rfl, List.getLast?_concat⟩

/-- While powered, UnpoweredRestore changes nothing. -/
theorem unpoweredRestore_on {s : State} (hp : s.powered = true) : unpoweredRestore s = s := if_pos hp

/-- While unpowered, UnpoweredRestore drives the line LOW. -/
theorem unpoweredRestore_off {s : State} (hp : s.powered = false) : unpoweredRestore s = drive .lo s :=
  if_neg (by simp [hp])

theorem unpoweredRestore_endsLow {s : State} (hp : s.powered = false) : EndsLow (unpoweredRestore s) :=
  unpoweredRestore_off hp ▸ drive_lo_endsLow s

/-- `t` has the trace of `s`, or it ends LOW. -/
def SilentOrLow (s t : State) : Prop := t.trace = s.trace ∨ EndsLow t

theorem leaveUser_silentOrLow {s : State} (hp : s.powered = false) (new : Mode) :
    SilentOrLow s (leaveUser new s) := by
  unfold leaveUser
  split
  · exact .inr (unpoweredRestore_endsLow hp)
  · exact .inl rfl

/-- Every command of a started, unpowered block but TURN_ON is silent, or ends with UnpoweredRestore. -/
theorem exec_silentOrLow {i : Instr} {s t : State} (hs : s.started = true) (hp : s.powered = false)
    (hi : i ≠ .turnOn) (h : exec i s = .next t) : SilentOrLow s t := by
  have gate {silent body} (hbody : SilentOrLow s (body s)) : SilentOrLow s (whenStarted silent body s) :=
    whenStarted_elim (P := SilentOrLow s) (.inl rfl) hbody
  cases i with
  | turnOn => exact absurd rfl hi
  | getColor | getMode | isAsync | getSpeed | isOn => cases h; exact .inl rfl
  | init p0 =>
    rw [exec_init_started hs] at h
    cases h
    exact .inl rfl
  | setColor r g b => cases h; exact gate (.inl rfl)
  | setSpeed value => cases h; exact gate (.inl rfl)
  | setMode id =>
    cases h
    refine gate ?_
    split
    · exact .inl rfl
    · exact leaveUser_silentOrLow hp _
  | startAsync => cases h; exact gate (.inr (unpoweredRestore_endsLow (by simpa using hp)))
  | stopAsync => cases h; exact gate (.inr (unpoweredRestore_endsLow (by simpa using hp)))
  | turnOff =>
    cases h
    refine gate ?_
    rw [if_neg (by simp [hp])]
    exact .inl rfl
  | sendPulse count width =>
    cases h
    refine gate ?_
    split
    · exact .inr (unpoweredRestore_endsLow (by simpa using hp))
    · exact .inl rfl

/-- Settles O24: a command that grows the trace is not silent, so it ends LOW. -/
theorem unpoweredLineEndsLow : Obligations.UnpoweredLineEndsLow :=
  ⟨fun _ => unpoweredRestore_on,
   fun _ _ _ hs hp hi h hgrows => (exec_silentOrLow hs hp hi h).resolve_left hgrows⟩

end Sys2Proof.Machine
end

section
/-! PROOFS. 41_color_mixer.md: SET_COLOR (R130, R132), GET_COLOR and the packed colour (R131), and LoopRGB (R133). -/

namespace Sys2Proof.Machine

/-! ## SET_COLOR (R130) -/

/-- Before INIT SET_COLOR only acknowledges. -/
theorem exec_setColor_stopped {s : State} (hs : s.started = false) (r g b : Byte) :
    exec (.setColor r g b) s = .next (reply ackByte s) := by
  rw [exec, execSetColor, whenStarted_stopped hs]

/-- A started block writes the colour, derives the holds and acknowledges, whatever its mode. -/
theorem exec_setColor_started {s : State} (hs : s.started = true) (r g b : Byte) :
    exec (.setColor r g b) s = .next (reply ackByte (writeRgb ⟨r, g, b⟩ s)) := by
  rw [exec, execSetColor, whenStarted_started hs]

/-- Settles O25: the two cases of the gate, the write of the colour by its whole effect. -/
theorem setColorEffect : Obligations.SetColorEffect := by
  intro r g b s
  refine ⟨fun hs => exec_setColor_stopped hs r g b, fun hs => ?_⟩
  rw [exec_setColor_started hs, writeRgb_eq]
  rfl

/-! ## GET_COLOR (R131) -/

/-- The packed colour as a number: its high half is the big-endian pair of red and green, its low byte blue (R61). -/
theorem Rgb.packed_toNat (c : Rgb) : c.packed.toNat = c.r.toNat * 65536 + c.g.toNat * 256 + c.b.toNat := by
  have hhigh : (c.r ++ c.g).toNat = c.r.toNat * 256 + c.g.toNat := bigEndian16_toNat c.r c.g
  rw [Rgb.packed, BitVec.toNat_append, ← Nat.shiftLeft_add_eq_or_of_lt c.b.isLt, Nat.shiftLeft_eq, hhigh]
  omega

/-- Settles O26: the reply is the ack and the colour's bytes, and `Rgb.packed_toNat` is their number. -/
theorem getColorReply : Obligations.GetColorReply :=
  fun s => ⟨rfl, s.rgb.packed_toNat⟩

/-! ## LoopRGB (R133) -/

/-- Settles O27: `loopRGB_eq` says what LoopRGB does; the three deltas are those of its SetIndex visits. -/
theorem loopRgbEffect : Obligations.LoopRgbEffect := by
  intro s
  refine ⟨indexDelta s.idx s.cfg.idxRed, indexDelta s.cfg.idxRed s.cfg.idxGreen,
    indexDelta s.cfg.idxGreen s.cfg.idxBlue, rfl, rfl, rfl, ?_⟩
  rw [loopRGB_eq, loopEvents]
  simp only [List.append_assoc]

end Sys2Proof.Machine
end

section
/-! PROOFS. 42_mode_engine.md: INIT and the commands before it (R150, R151), SET_MODE (R152), the one-byte queries
(R153, R172, R182, R213), power (R170, R171), and the tick (R160). -/

namespace Sys2Proof.Machine

/-! ## Before INIT (R151) -/

/-- Before INIT every other command only appends the reply of R151's table. -/
theorem exec_stopped {i : Instr} {s : State} (hs : s.started = false) (hi : ∀ p0, i ≠ .init p0) :
    exec i s = .next { s with rsp := s.rsp ++ replyBeforeInit i s } := by
  cases i with
  | init p0 => exact absurd rfl (hi p0)
  | getColor | getMode | isAsync | getSpeed | isOn => rfl
  | setColor | setMode | startAsync | stopAsync | setSpeed | turnOn | turnOff | sendPulse =>
    exact congrArg _ (whenStarted_stopped hs _ _)

theorem tick_stopped {s : State} (hs : s.started = false) (now : Time) : tick now s = s :=
  if_neg (by simp [hs])

/-- Settles O18: the gate of R151, and the tick's own test of `started`. -/
theorem commandsBeforeInit : Obligations.CommandsBeforeInit :=
  fun _ _ hs => ⟨exec_stopped hs, tick_stopped hs⟩

/-! ## INIT (R150) -/

/-- Settles O28: `exec_init_stopped` by the operand, which powers the block up exactly when it is not 0. -/
theorem initEffect : Obligations.InitEffect := by
  intro p0 s
  refine ⟨fun hs => exec_init_started hs p0, fun hs hp0 => ?_, fun hs hp0 => ?_⟩
  · have hon : startPowered p0 = true := bne_iff_ne.mpr hp0
    rw [exec_init_stopped hs, if_pos hon, resync_eq]
    rfl
  · have hoff : ¬ startPowered p0 = true := fun hon => bne_iff_ne.mp hon hp0
    rw [exec_init_stopped hs, if_neg hoff]
    rfl

/-! ## SET_MODE (R152) -/

/-- An id that is no mode fails and changes nothing, before INIT and after it. -/
theorem exec_setMode_unknown {id : Byte} (hid : 3 < id.toNat) (s : State) :
    exec (.setMode id) s = .next (reply failByte s) := by
  rw [exec, execSetMode]
  cases hs : s.started with
  | false => rw [whenStarted_stopped hs]
  | true => rw [whenStarted_started hs, Mode.ofId_eq_none hid]

/-- A started block leaves USER if it must, adopts the mode and acknowledges. -/
theorem exec_setMode_known {s : State} (hs : s.started = true) (new : Mode) :
    exec (.setMode new.id) s = .next (reply ackByte { leaveUser new s with mode := new }) := by
  rw [exec, execSetMode, whenStarted_started hs, Mode.ofId_id]

/-- When USER is not left, nothing is driven. -/
theorem leaveUser_stays {s : State} {new : Mode} (h : s.mode ≠ .user ∨ new = .user) : leaveUser new s = s :=
  if_neg fun ⟨huser, hnew⟩ => h.elim (· huser) hnew

/-- Leaving USER resyncs once, then restores the unpowered line. -/
theorem leaveUser_leaves {s : State} {new : Mode} (huser : s.mode = .user) (hnew : new ≠ .user) :
    leaveUser new s = unpoweredRestore (resync s) :=
  if_pos ⟨huser, hnew⟩

/-- Settles O29: failure by the gate or by the id, and the two cases of `leaveUser` for the four modes. -/
theorem setModeEffect : Obligations.SetModeEffect := by
  intro id s
  refine ⟨?_, ?_, ?_⟩
  · rintro (hs | hid)
    · exact exec_stopped hs nofun
    · exact exec_setMode_unknown hid s
  · rintro new hs rfl hstays
    rw [exec_setMode_known hs, leaveUser_stays hstays]
    rfl
  · rintro new hs rfl huser hnew
    rw [exec_setMode_known hs, leaveUser_leaves huser hnew, unpoweredRestore_eq, resync_eq]
    rfl

/-! ## Queries (R153, R172, R182, R213) -/

/-- Settles O30: each query is `replyData` of its one byte, with no gate before it. -/
theorem queryReplies : Obligations.QueryReplies :=
  fun _ => ⟨rfl, rfl, rfl, rfl⟩

/-! ## Power (R170, R171) -/

/-- From off, TURN_ON powers up, resyncs and acknowledges. -/
theorem exec_turnOn_off {s : State} (hs : s.started = true) (hp : s.powered = false) :
    exec .turnOn s = .next (reply ackByte (resync (setPowered true s))) := by
  rw [exec, execTurnOn, whenStarted_started hs, if_neg (by simp [hp])]

/-- Before INIT and already on, TURN_ON only acknowledges. -/
theorem exec_turnOn_ignored {s : State} (h : s.started = false ∨ s.powered = true) :
    exec .turnOn s = .next (reply ackByte s) := by
  cases hs : s.started with
  | false => exact exec_stopped hs nofun
  | true =>
    have hp : s.powered = true := h.resolve_left (by simp [hs])
    rw [exec, execTurnOn, whenStarted_started hs, if_pos hp]

/-- From on, TURN_OFF powers down, drives the line LOW and acknowledges. -/
theorem exec_turnOff_on {s : State} (hs : s.started = true) (hp : s.powered = true) :
    exec .turnOff s = .next (reply ackByte (drive .lo (setPowered false s))) := by
  rw [exec, execTurnOff, whenStarted_started hs, if_pos hp]

/-- Before INIT and already off, TURN_OFF only acknowledges. -/
theorem exec_turnOff_ignored {s : State} (h : s.started = false ∨ s.powered = false) :
    exec .turnOff s = .next (reply ackByte s) := by
  cases hs : s.started with
  | false => exact exec_stopped hs nofun
  | true =>
    have hp : s.powered = false := h.resolve_left (by simp [hs])
    rw [exec, execTurnOff, whenStarted_started hs, if_neg (by simp [hp])]

/-- Settles O31: R170 by `started` and `powered`, the resync by its whole effect. -/
theorem turnOnEffect : Obligations.TurnOnEffect := by
  intro s
  refine ⟨exec_turnOn_ignored, fun hs hp => ?_⟩
  rw [exec_turnOn_off hs hp, resync_eq]
  rfl

/-- Settles O32: R171 by `started` and `powered`. -/
theorem turnOffEffect : Obligations.TurnOffEffect :=
  fun _ => ⟨exec_turnOff_ignored, exec_turnOff_on⟩

/-! ## Tick (R160) -/

/-- The elapsed time of R33 as a number: it wraps with the clock. -/
theorem elapsed_eq (now : Time) (s : State) :
    elapsed now s = (now.toNat + 2 ^ 32 - s.lastT.toNat) % 2 ^ 32 := by
  have hlast : s.lastT.toNat < 2 ^ 32 := s.lastT.isLt
  rw [elapsed, BitVec.toNat_sub]
  congr 1
  omega

/-- Before the interval is over nothing advances. -/
theorem advanceAfter_early {interval since : Nat} (h : since < interval) (now : Time) (advance : State → State)
    (s : State) : advanceAfter interval since now advance s = s :=
  if_neg (Nat.not_le_of_lt h)

/-- From then on there is one advance, stamped with the sample. -/
theorem advanceAfter_late {interval since : Nat} (h : interval ≤ since) (now : Time) (advance : State → State)
    (s : State) : advanceAfter interval since now advance s = { advance s with lastT := now } :=
  if_pos h

theorem tick_unpowered {s : State} (hs : s.started = true) (hp : s.powered = false) (now : Time) :
    tick now s = drive .lo s := by
  rw [tick, if_pos hs, if_neg (by simp [hp])]

section Lit

variable {s : State} (hs : s.started = true) (hp : s.powered = true)
include hs hp

theorem tick_user (hmode : s.mode = .user) (now : Time) : tick now s = s := by
  rw [tick, if_pos hs, if_pos hp, hmode]

theorem tick_solid (hmode : s.mode = .solid) (now : Time) : tick now s = loopRGB s := by
  rw [tick, if_pos hs, if_pos hp, hmode]

theorem tick_jump (hmode : s.mode = .jump) (now : Time) :
    tick now s = advanceAfter s.jumpMs (elapsed now s) now jumpStep (loopRGB s) := by
  rw [tick, if_pos hs, if_pos hp, hmode]

theorem tick_fade (hmode : s.mode = .fade) (now : Time) :
    tick now s = advanceAfter s.msPerDeg (elapsed now s) now fadeStep (loopRGB s) := by
  rw [tick, if_pos hs, if_pos hp, hmode]

end Lit

/-- Settles O33: one equation of `tick` for each case of R160, JUMP and FADE split by the elapsed time. -/
theorem tickEffect : Obligations.TickEffect := by
  intro now s
  refine ⟨fun hs => tick_stopped hs now, fun hs hp => tick_unpowered hs hp now, fun hs hp => ?_⟩
  rw [← elapsed_eq]
  refine ⟨fun hmode => tick_user hs hp hmode now, fun hmode => tick_solid hs hp hmode now, ?_, ?_, ?_, ?_⟩
  · intro hmode hearly
    rw [tick_jump hs hp hmode, advanceAfter_early hearly]
  · intro hmode hlate
    rw [tick_jump hs hp hmode, advanceAfter_late hlate]
  · intro hmode hearly
    rw [tick_fade hs hp hmode, advanceAfter_early hearly]
  · intro hmode hlate
    rw [tick_fade hs hp hmode, advanceAfter_late hlate]

end Sys2Proof.Machine
end

section
/-! PROOFS. 43_async.md: the sweep widths (R183), START_ASYNC (R180) and STOP_ASYNC (R181). -/

namespace Sys2Proof.Machine

/-! ## The sweep widths (R183) -/

/-- The ramp goes on exactly while its width is at least `SWEEP_W_LO_US`. -/
theorem lt_nSweep_iff {c : Config} (hc : c.Valid) (k : Nat) :
    k < nSweep c ↔ c.sweepLoUs + k * c.sweepStepUs ≤ c.sweepHiUs :=
  calc k < nSweep c
    _ ↔ k ≤ (c.sweepHiUs - c.sweepLoUs) / c.sweepStepUs := Nat.lt_succ_iff
    _ ↔ k * c.sweepStepUs ≤ c.sweepHiUs - c.sweepLoUs := Nat.le_div_iff_mul_le hc.sweepStep_pos
    _ ↔ k * c.sweepStepUs + c.sweepLoUs ≤ c.sweepHiUs := Nat.le_sub_iff_add_le hc.sweep_le
    _ ↔ c.sweepLoUs + k * c.sweepStepUs ≤ c.sweepHiUs := by rw [Nat.add_comm]

theorem sweepWidths_getElem? {c : Config} (hc : c.Valid) (k : Nat) :
    (sweepWidths c)[k]? =
      if c.sweepLoUs + k * c.sweepStepUs ≤ c.sweepHiUs then some (c.sweepHiUs - k * c.sweepStepUs) else none := by
  simp only [← lt_nSweep_iff hc, sweepWidths, List.getElem?_map]
  split
  · next hk => rw [List.getElem?_range hk, Option.map_some]
  · next hk => rw [List.getElem?_eq_none (by simpa using hk), Option.map_none]

/-- A later width is at least one step shorter, and no subtraction underflows before the ramp ends. -/
theorem sweepWidths_pairwise_gt {c : Config} (hc : c.Valid) : (sweepWidths c).Pairwise (· > ·) := by
  refine List.pairwise_map.mpr (List.pairwise_lt_range.imp_of_mem fun {j k} _ hk hjk => ?_)
  have hfits : c.sweepLoUs + k * c.sweepStepUs ≤ c.sweepHiUs := (lt_nSweep_iff hc k).mp (List.mem_range.mp hk)
  have hstep : j * c.sweepStepUs < k * c.sweepStepUs := Nat.mul_lt_mul_of_pos_right hjk hc.sweepStep_pos
  omega

theorem sweepLoUs_le_of_mem_sweepWidths {c : Config} (hc : c.Valid) {w : Nat} (hw : w ∈ sweepWidths c) :
    c.sweepLoUs ≤ w := by
  obtain ⟨k, hk⟩ := List.mem_iff_getElem?.mp hw
  rw [sweepWidths_getElem? hc, Option.ite_none_right_eq_some, Option.some_inj] at hk
  omega

theorem sweepWidths_head? {c : Config} (hc : c.Valid) : (sweepWidths c).head? = some c.sweepHiUs := by
  rw [List.head?_eq_getElem?, sweepWidths_getElem? hc, Nat.zero_mul, Nat.add_zero, if_pos hc.sweep_le, Nat.sub_zero]

/-- When the step divides the span, the last width is the lower bound itself. -/
theorem sweepWidths_getLast? {c : Config} (hc : c.Valid) (hdvd : c.sweepStepUs ∣ c.sweepHiUs - c.sweepLoUs) :
    (sweepWidths c).getLast? = some c.sweepLoUs := by
  have hle : c.sweepLoUs ≤ c.sweepHiUs := hc.sweep_le
  rw [List.getLast?_eq_getElem?, sweepWidths_length, nSweep, Nat.add_sub_cancel, sweepWidths_getElem? hc,
    Nat.div_mul_cancel hdvd, if_pos (Nat.add_sub_cancel' hle).le, Nat.sub_sub_self hle]

/-- Settles O34: every clause follows from the k-th width, which is there exactly while it fits. -/
theorem sweepWidthsRamp : Obligations.SweepWidthsRamp := fun c hc =>
  ⟨sweepWidths_length c, sweepWidths_getElem? hc, sweepWidths_pairwise_gt hc, sweepWidths_head? hc,
    fun _ => sweepLoUs_le_of_mem_sweepWidths hc, sweepWidths_getLast? hc⟩

/-! ## START_ASYNC and STOP_ASYNC (R180, R181) -/

/-- Everything the sweep of START_ASYNC does: its ramp is never empty, so the line ends HIGH. -/
theorem sweepPulses_sweepWidths_eq (s : State) :
    sweepPulses (sweepWidths s.cfg) s =
      { s with
        idx := s.idx + BitVec.ofNat 3 (nSweep s.cfg)
        line := .hi
        trace := s.trace ++ ((sweepWidths s.cfg).map (pulses 1)).flatten } := by
  rw [sweepPulses_eq, sweepWidths_length, sweepWidths_isEmpty, if_neg Bool.false_ne_true]

/-- Settles O35: the gate of R151, then the sweep and the restore each by its whole effect. -/
theorem startAsyncEffect : Obligations.StartAsyncEffect := by
  intro s
  refine ⟨fun hs => exec_stopped hs nofun, fun hs => ?_⟩
  rw [exec_startAsync_started hs, sweepPulses_sweepWidths_eq, unpoweredRestore_eq]
  rfl

/-- Settles O36: the gate of R151, then the resync and the restore each by its whole effect. -/
theorem stopAsyncEffect : Obligations.StopAsyncEffect := by
  intro s
  refine ⟨fun hs => exec_stopped hs nofun, fun hs => ?_⟩
  rw [exec_stopAsync_started hs, resync_eq, unpoweredRestore_eq]
  rfl

end Sys2Proof.Machine
end

section
/-! PROOFS. 44_fade_walker.md: the hexagon and its segments (R191), FadeStep (R190), Recover (R193) and JumpStep (R195,
R196). -/

namespace Sys2Proof.Machine

/-! ## The hexagon and its segments (R191) -/

theorem onHexagon_iff (c : Rgb) :
    onHexagon c = true ↔ (c.r = 255 ∨ c.g = 255 ∨ c.b = 255) ∧ (c.r = 0 ∨ c.g = 0 ∨ c.b = 0) := by
  simp only [onHexagon, Bool.and_eq_true, Bool.or_eq_true, beq_iff_eq, or_assoc]

section Guards
variable (c : Rgb)

theorem segmentGuard_zero_iff : segmentGuard 0 c = true ↔ c.r = 255 ∧ c.b = 0 ∧ c.g.toNat < 255 := by
  simp [segmentGuard, BitVec.lt_def, and_assoc]

theorem segmentGuard_one_iff : segmentGuard 1 c = true ↔ c.g = 255 ∧ c.b = 0 ∧ c.r.toNat > 0 := by
  simp [segmentGuard, BitVec.lt_def, and_assoc]

theorem segmentGuard_two_iff : segmentGuard 2 c = true ↔ c.g = 255 ∧ c.r = 0 ∧ c.b.toNat < 255 := by
  simp [segmentGuard, BitVec.lt_def, and_assoc]

theorem segmentGuard_three_iff : segmentGuard 3 c = true ↔ c.b = 255 ∧ c.r = 0 ∧ c.g.toNat > 0 := by
  simp [segmentGuard, BitVec.lt_def, and_assoc]

theorem segmentGuard_four_iff : segmentGuard 4 c = true ↔ c.b = 255 ∧ c.g = 0 ∧ c.r.toNat < 255 := by
  simp [segmentGuard, BitVec.lt_def, and_assoc]

theorem segmentGuard_five_iff : segmentGuard 5 c = true ↔ c.r = 255 ∧ c.g = 0 ∧ c.b.toNat > 0 := by
  simp [segmentGuard, BitVec.lt_def, and_assoc]

end Guards

/-- A vertex belongs to the segment that starts there. -/
theorem segmentGuard_vertex : ∀ k, segmentGuard k (vertex k) = true := by decide

/-- Settles O39: the hexagon and each guard by its own equivalence, the two clamps by their values, the vertices one by
one. -/
theorem hexagonSegments : Obligations.HexagonSegments :=
  ⟨fun r g b => ⟨onHexagon_iff ⟨r, g, b⟩, segmentGuard_zero_iff ⟨r, g, b⟩, segmentGuard_one_iff ⟨r, g, b⟩,
      segmentGuard_two_iff ⟨r, g, b⟩, segmentGuard_three_iff ⟨r, g, b⟩, segmentGuard_four_iff ⟨r, g, b⟩,
      segmentGuard_five_iff ⟨r, g, b⟩⟩,
    fun _ _ _ _ => ⟨rfl, rfl, rfl, rfl, rfl, rfl⟩,
    fun v s => ⟨satUp_toNat v s, satDown_toNat v s⟩,
    segmentGuard_vertex⟩

/-! ## FadeStep (R190) -/

/-- Each guard names a channel at 255 and a channel at 0, so a guarded colour is on the hexagon. -/
theorem onHexagon_of_segmentGuard {k : Fin 6} {c : Rgb} (h : segmentGuard k c = true) : onHexagon c = true := by
  rw [onHexagon_iff]
  match k with
  | 0 => obtain ⟨hr, hb, -⟩ := (segmentGuard_zero_iff c).mp h; exact ⟨.inl hr, .inr (.inr hb)⟩
  | 1 => obtain ⟨hg, hb, -⟩ := (segmentGuard_one_iff c).mp h; exact ⟨.inr (.inl hg), .inr (.inr hb)⟩
  | 2 => obtain ⟨hg, hr, -⟩ := (segmentGuard_two_iff c).mp h; exact ⟨.inr (.inl hg), .inl hr⟩
  | 3 => obtain ⟨hb, hr, -⟩ := (segmentGuard_three_iff c).mp h; exact ⟨.inr (.inr hb), .inl hr⟩
  | 4 => obtain ⟨hb, hg, -⟩ := (segmentGuard_four_iff c).mp h; exact ⟨.inr (.inr hb), .inr (.inl hg)⟩
  | 5 => obtain ⟨hr, hg, -⟩ := (segmentGuard_five_iff c).mp h; exact ⟨.inl hr, .inr (.inl hg)⟩

/-- No colour satisfies two guards: on some channel one of them asks for an end of the range and the other for the
opposite end, or for a value off that end. -/
theorem segmentGuard_unique {j k : Fin 6} {c : Rgb} (hj : segmentGuard j c = true) (hk : segmentGuard k c = true) :
    j = k := by
  obtain ⟨r, g, b⟩ := c
  match k with
  | 0 => obtain ⟨rfl, rfl, hmoving⟩ := (segmentGuard_zero_iff _).mp hk; fin_cases j <;> simp_all [segmentGuard]
  | 1 => obtain ⟨rfl, rfl, hmoving⟩ := (segmentGuard_one_iff _).mp hk; fin_cases j <;> simp_all [segmentGuard]
  | 2 => obtain ⟨rfl, rfl, hmoving⟩ := (segmentGuard_two_iff _).mp hk; fin_cases j <;> simp_all [segmentGuard]
  | 3 => obtain ⟨rfl, rfl, hmoving⟩ := (segmentGuard_three_iff _).mp hk; fin_cases j <;> simp_all [segmentGuard]
  | 4 => obtain ⟨rfl, rfl, hmoving⟩ := (segmentGuard_four_iff _).mp hk; fin_cases j <;> simp_all [segmentGuard]
  | 5 => obtain ⟨rfl, rfl, hmoving⟩ := (segmentGuard_five_iff _).mp hk; fin_cases j <;> simp_all [segmentGuard]

/-- The two things a fade can do to the colour: step on the segment whose guard holds, or recover where none does. -/
theorem fadeRgb_cases (s : Nat) (c : Rgb) :
    (∃ k, segmentGuard k c = true ∧ fadeRgb s c = segmentStep k s c) ∨
      ((∀ k, segmentGuard k c ≠ true) ∧ fadeRgb s c = recover s c) := by
  unfold fadeRgb
  split; · exact .inl ⟨0, ‹_›, rfl⟩
  split; · exact .inl ⟨1, ‹_›, rfl⟩
  split; · exact .inl ⟨2, ‹_›, rfl⟩
  split; · exact .inl ⟨3, ‹_›, rfl⟩
  split; · exact .inl ⟨4, ‹_›, rfl⟩
  split; · exact .inl ⟨5, ‹_›, rfl⟩
  refine .inr ⟨fun k => ?_, rfl⟩
  fin_cases k <;> assumption

/-- On a segment the fade takes that segment's step: no other guard holds there. -/
theorem fadeRgb_of_segmentGuard {k : Fin 6} {c : Rgb} (h : segmentGuard k c = true) (s : Nat) :
    fadeRgb s c = segmentStep k s c := by
  obtain ⟨j, hj, hstep⟩ | ⟨hnone, -⟩ := fadeRgb_cases s c
  · rw [hstep, segmentGuard_unique hj h]
  · exact absurd h (hnone k)

/-- Off the hexagon the fade recovers. -/
theorem fadeRgb_of_off {c : Rgb} (h : onHexagon c = false) (s : Nat) : fadeRgb s c = recover s c := by
  obtain ⟨j, hj, -⟩ | ⟨-, hrec⟩ := fadeRgb_cases s c
  · exact absurd (onHexagon_of_segmentGuard hj) (by simp [h])
  · exact hrec

/-- Settles O41: FadeStep writes `fadeRgb` of the colour, which is the segment's step on a segment and Recover off the
hexagon. -/
theorem fadeStepEffect : Obligations.FadeStepEffect := fun s =>
  have onSegment {k : Fin 6} (h : segmentGuard k s.rgb = true) :
      (fadeStep s).rgb = segmentStep k s.cfg.fadeStep s.rgb := fadeRgb_of_segmentGuard h s.cfg.fadeStep
  ⟨fun v => satUp v s.cfg.fadeStep, fun v => satDown v s.cfg.fadeStep,
    fun v => ⟨satUp_toNat v s.cfg.fadeStep, satDown_toNat v s.cfg.fadeStep⟩,
    onSegment, onSegment, onSegment, onSegment, onSegment, onSegment,
    fun h => fadeRgb_of_off h s.cfg.fadeStep, fadeStep_eq s⟩

/-! ## Recover (R193) -/

@[simp] theorem Rgb.get_set_same (c : Rgb) (ch : Channel) (v : Byte) : (c.set ch v).get ch = v := by
  cases ch <;> rfl

theorem Rgb.get_set_of_ne {ch ch' : Channel} (h : ch' ≠ ch) (c : Rgb) (v : Byte) :
    (c.set ch v).get ch' = c.get ch' := by
  revert h
  cases ch <;> cases ch' <;> simp [Rgb.get, Rgb.set]

/-- `highest` is a maximum, and the first of them in the order r, g, b. -/
theorem highest_isFirstMax (c : Rgb) (ch : Channel) :
    c.get ch ≤ c.get (highest c) ∧ (ch.rank < (highest c).rank → c.get ch < c.get (highest c)) := by
  unfold highest
  split
  · next hr => cases ch <;> simp [Rgb.get, Channel.rank, hr.1, hr.2]
  · next hr =>
    split
    · next hgb =>
      have hrg : c.r < c.g := by bv_omega
      cases ch <;> simp [Rgb.get, Channel.rank, hgb, hrg, BitVec.le_of_lt hrg]
    · next hgb =>
      have hrb : c.r < c.b := by bv_omega
      have hgb' : c.g < c.b := BitVec.not_le.mp hgb
      cases ch <;> simp [Rgb.get, Channel.rank, hrb, hgb', BitVec.le_of_lt hrb, BitVec.le_of_lt hgb']

/-- `lowest` is a minimum, and the last of them in the order r, g, b. -/
theorem lowest_isLastMin (c : Rgb) (ch : Channel) :
    c.get (lowest c) ≤ c.get ch ∧ ((lowest c).rank < ch.rank → c.get (lowest c) < c.get ch) := by
  unfold lowest
  split
  · next hb => cases ch <;> simp [Rgb.get, Channel.rank, hb.1, hb.2]
  · next hb =>
    split
    · next hgr =>
      have hgb : c.g < c.b := by bv_omega
      cases ch <;> simp [Rgb.get, Channel.rank, hgr, hgb, BitVec.le_of_lt hgb]
    · next hgr =>
      have hrg : c.r < c.g := BitVec.not_le.mp hgr
      have hrb : c.r < c.b := by bv_omega
      cases ch <;> simp [Rgb.get, Channel.rank, hrg, hrb, BitVec.le_of_lt hrg, BitVec.le_of_lt hrb]

/-- A first maximum that is also the last minimum would have every channel equal to it, and so be both r and b. -/
theorem highest_ne_lowest (c : Rgb) : highest c ≠ lowest c := by
  intro heq
  have hred : ¬ Channel.rank .r < (highest c).rank := fun hlt =>
    absurd ((highest_isFirstMax c .r).2 hlt) (heq ▸ BitVec.not_lt.mpr (lowest_isLastMin c .r).1)
  have hblue : ¬ (highest c).rank < Channel.rank .b := fun hlt =>
    absurd ((lowest_isLastMin c .b).2 (heq ▸ hlt)) (heq ▸ BitVec.not_lt.mpr (highest_isFirstMax c .b).1)
  simp only [Channel.rank] at hred hblue
  omega

section RecoverChannels
variable (s : Nat) (c : Rgb)

theorem recover_get_highest : (recover s c).get (highest c) = satUp (c.get (highest c)) s := by
  rw [recover, Rgb.get_set_same, Rgb.get_set_of_ne (highest_ne_lowest c)]

theorem recover_get_lowest : (recover s c).get (lowest c) = satDown (c.get (lowest c)) s := by
  rw [recover, Rgb.get_set_of_ne (highest_ne_lowest c).symm, Rgb.get_set_same]

theorem recover_get_of_ne {ch : Channel} (hhi : ch ≠ highest c) (hlo : ch ≠ lowest c) :
    (recover s c).get ch = c.get ch := by
  rw [recover, Rgb.get_set_of_ne hhi, Rgb.get_set_of_ne hlo]

end RecoverChannels

/-- Settles O42: the two channels are `highest` and `lowest`, and Recover writes one and then the other. -/
theorem recoverEffect : Obligations.RecoverEffect := by
  intro s c
  refine ⟨highest c, lowest c, highest_ne_lowest c, highest_isFirstMax c, lowest_isLastMin c, ?_, ?_,
    fun ch => recover_get_of_ne s c⟩
  · rw [recover_get_highest, satUp_toNat]
  · rw [recover_get_lowest, satDown_toNat]

/-! ## JumpStep (R195, R196) -/

/-- Settles O47: the whole effect of JumpStep, with `jumpIdx` read as a number, and the table of hue states. -/
theorem jumpStepEffect : Obligations.JumpStepEffect :=
  ⟨fun s => ⟨Fin.val_add s.jumpIdx 1, rfl, jumpStep_eq s⟩, rfl, rfl, rfl, rfl, rfl, rfl⟩

end Sys2Proof.Machine
end

section
/-! PROOFS. 45_speed_model.md: Recompute (R211) and SET_SPEED (R212). -/

namespace Sys2Proof.Machine

/-! ## Recompute (R211) -/

/-- At speed 0 the rate is `MIN_RATE`. -/
theorem rateOf_zero (c : Config) : rateOf c 0 = c.minRate := by
  have hspeed : (0 : Byte).toNat = 0 := rfl
  rw [rateOf, hspeed, Nat.zero_mul, Nat.zero_div, Nat.add_zero]

/-- The rate divides 1000 safely: it is at least `MIN_RATE`, which R6 keeps off 0. -/
theorem rateOf_pos {c : Config} (h : c.Valid) (speed : Byte) : 1 ≤ rateOf c speed :=
  calc 1 ≤ c.minRate := h.minRate_pos
    _ ≤ rateOf c speed := Nat.le_add_right _ _

/-- Settles O48: the rate is `rateOf` of the configuration and the speed, so its bound and its two ends are those of
`rateOf`. -/
theorem recomputeEffect : Obligations.RecomputeEffect := by
  intro s
  refine ⟨⟨rateOf s.cfg s.speed, rfl, rfl⟩, fun hv => rateOf_pos hv s.speed, fun hzero => ?_, fun hv hfull => ?_⟩
  · rw [recompute_rate, hzero, rateOf_zero]
  · rw [recompute_rate, hfull, rateOf_full hv.rate_le]

/-! ## SET_SPEED (R212) -/

/-- A started block writes the speed, recomputes the intervals and acknowledges. -/
theorem exec_setSpeed_started {s : State} (hs : s.started = true) (value : Byte) :
    exec (.setSpeed value) s = .next (reply ackByte (recompute { s with speed := value })) := by
  rw [exec, execSetSpeed, whenStarted_started hs]

/-- Settles O49: before INIT the reply of R151's table; after it `exec_setSpeed_started`, written out by register. -/
theorem setSpeedEffect : Obligations.SetSpeedEffect :=
  fun value _ => ⟨fun hs => exec_stopped hs (fun _ => nofun), fun hs => exec_setSpeed_started hs value⟩

end Sys2Proof.Machine
end

section
/-! PROOFS. 70_reset_and_hazards.md: the state that RST leaves, and what it answers until INIT (R250). -/

namespace Sys2Proof.Machine

/-! ## RST (R250) -/

/-- The intervals that RST stores are the ones of speed 0 (R38, R211). -/
theorem rstStep_intervals (rest : List Input) (s : State) :
    (rstStep rest s).rate = rateOf s.cfg 0 ∧ (rstStep rest s).msPerDeg = msPerDegOf s.cfg 0 ∧
      (rstStep rest s).jumpMs = jumpMsOf s.cfg 0 := by
  rw [jumpMsOf, msPerDegOf, rateOf_zero]
  exact ⟨rfl, rfl, rfl⟩

/-- RST stops the block, whatever it was doing. -/
@[simp] theorem rstStep_started (rest : List Input) (s : State) : (rstStep rest s).started = false := rfl

/-- Settles O14: the step is `rstStep`, which stores the values of R38 and stops the block, so that R151's rules for a
stopped block give the ticks and the commands. -/
theorem rstRestoresResetValues : Obligations.RstRestoresResetValues := by
  intro s rest hv hi
  have hstopped : (rstStep rest s).started = false := rstStep_started rest s
  exact ⟨rstStep rest s, step_rst hv hi,
    ⟨hstopped, rfl, rfl, rfl, rfl, rfl, rfl, rfl, rfl, rfl, rfl, rfl, rfl, rfl⟩,
    rstStep_intervals rest s, tick_stopped hstopped, fun _ => exec_stopped hstopped⟩

end Sys2Proof.Machine
end

section
/-! PROOFS. 30_encoding.md: decoder and encoder are inverse (R80 to R83), a step runs the command its bytes decode to,
and whole frames on the port give the frame-level view (R84 to R88). -/

namespace Sys2Proof

/-! ## Decoder and encoder -/

/-- Assembling a command's own parameter bytes gives the command. -/
theorem assemble_params (i : Instr) : assemble i.opcode i.params = i := by
  cases i with
  | sendPulse count width => exact congrArg (Instr.sendPulse count) (bigEndian16_bytes width)
  | _ => rfl

/-- The encoding of an assembled command is the opcode byte and the parameter bytes it was assembled from. -/
theorem encode_assemble {op : Opcode} {ps : List Byte} (h : ps.length = op.paramCount) :
    encode (assemble op ps) = op.byte :: ps := by
  rw [encode, opcode_assemble]
  congr 1
  cases op with
  | getColor | getMode | startAsync | stopAsync | isAsync | getSpeed | turnOn | turnOff | isOn =>
    exact (List.length_eq_zero_iff.mp h).symm
  | init | setMode | setSpeed =>
    obtain ⟨p0, rfl⟩ := List.length_eq_one_iff.mp h
    rfl
  | setColor =>
    obtain ⟨p0, p1, p2, rfl⟩ := List.length_eq_three.mp h
    rfl
  | sendPulse =>
    obtain ⟨p0, p1, p2, rfl⟩ := List.length_eq_three.mp h
    have hwidth : [(bigEndian16 p1 p2).extractLsb' 8 8, (bigEndian16 p1 p2).extractLsb' 0 8] = [p1, p2] := by
      rw [bigEndian16_high, bigEndian16_low]
    exact congrArg (p0 :: ·) hwidth

/-- What decodes is a whole frame: an opcode byte, its parameter bytes, and the bytes left over. -/
theorem decode_eq_ok {bs rest : List Byte} {i : Instr} (h : decode bs = .ok (i, rest)) :
    ∃ op ps, ps.length = op.paramCount ∧ bs = op.byte :: ps ++ rest ∧ i = assemble op ps := by
  cases bs with
  | nil => cases h
  | cons b tail =>
    cases hop : Opcode.ofByte b with
    | none => rw [decode_illegal hop] at h; cases h
    | some op =>
      obtain rfl := Opcode.byte_of_ofByte hop
      by_cases hshort : tail.length < op.paramCount
      · rw [decode_short hshort] at h; cases h
      · have hlen : (tail.take op.paramCount).length = op.paramCount :=
          List.length_take_of_le (Nat.le_of_not_lt hshort)
        have hsplit : op.byte :: tail.take op.paramCount ++ tail.drop op.paramCount = op.byte :: tail :=
          congrArg (op.byte :: ·) (List.take_append_drop _ _)
        rw [← hsplit, decode_whole hlen] at h
        cases h
        exact ⟨op, _, hlen, hsplit.symm, rfl⟩

/-- Different opcodes have different bytes. -/
theorem Opcode.byte_injective {op op' : Opcode} (h : op.byte = op'.byte) : op = op' :=
  Option.some.inj ((Opcode.ofByte_byte op).symm.trans (h ▸ Opcode.ofByte_byte op'))

/-- Settles O1: each frame is whole, and its operands are read off. -/
theorem writtenFramesDecode : Obligations.WrittenFramesDecode :=
  ⟨decode_whole (op := .init) (ps := [7]) rfl [], decode_whole (op := .setColor) (ps := [10, 20, 30]) rfl [],
   decode_whole (op := .setMode) (ps := [2]) rfl [], decode_whole (op := .startAsync) (ps := []) rfl [],
   decode_whole (op := .setSpeed) (ps := [255]) rfl [], decode_whole (op := .turnOff) (ps := []) rfl [],
   decode_whole (op := .sendPulse) (ps := [3, 1, 244]) rfl []⟩

/-- Settles O2: an encoding is a whole frame, and assembling it gives the command. -/
theorem decodeInvertsEncode : Obligations.DecodeInvertsEncode := by
  intro i rest
  have hwhole : decode (encode i ++ rest) = .ok (assemble i.opcode i.params, rest) :=
    decode_whole (params_length i) rest
  rwa [assemble_params] at hwhole

/-- Settles O3: what decodes is a whole frame, and the frame is the encoding of what it assembles to. -/
theorem encodeInvertsDecode : Obligations.EncodeInvertsDecode := by
  intro bs i rest h
  obtain ⟨op, ps, hlen, rfl, rfl⟩ := decode_eq_ok h
  rw [encode_assemble hlen]

end Sys2Proof

namespace Sys2Proof.Machine

/-! ## One step -/

/-- The last parameter byte decodes with the collected ones to the command the step runs (R85). -/
theorem step_collect_decoded {s : State} {b : Byte} {t t0 now : Time} {rest : List Input} {op : Opcode}
    {got : List Byte} {i : Instr} (hv : s.cfg.Valid) (hi : s.inputs = .byte b t now :: rest)
    (hp : s.parser = .collect op got t0) (ht : (t - t0).toNat < s.cfg.tCmdTimeoutMs)
    (hd : decode (op.byte :: got ++ [b]) = .ok (i, [])) :
    step s = exec i { s with inputs := rest, nowMs := now, parser := .idle } := by
  obtain ⟨op', ps, hlen, hbytes, rfl⟩ := decode_eq_ok hd
  rw [List.append_nil] at hbytes
  obtain ⟨hop, rfl⟩ := List.cons.inj hbytes
  obtain rfl := Opcode.byte_injective hop
  exact step_collect_last hv hi hp ht hlen

/-- Settles O7: the two states of the parser for a byte in time, and the timeout step for a late one. -/
theorem stepRunsDecodedCommand : Obligations.StepRunsDecodedCommand := by
  intro s b arrival now rest i hv hi
  refine ⟨fun he hd => ?_, fun he => ?_⟩
  · cases hp : s.parser with
    | idle =>
      rw [hp] at hd
      rw [step_idle_whole hv hi hp hd]
      exact congrArg (exec i) (setIdle_of_idle (s := { s with inputs := rest, nowMs := now }) hp).symm
    | collect op got t0 =>
      rw [hp] at hd
      have ht : (arrival - t0).toNat < s.cfg.tCmdTimeoutMs := by simpa [expired_collect hp] using he
      exact step_collect_decoded hv hi hp ht hd
  · rw [step_byte hv hi, byteStep, if_pos he]
    rfl

/-- Settles O13: the step of a tick input is `tickStep`. -/
theorem stepRunsTick : Obligations.StepRunsTick :=
  fun _ _ _ hv hi => step_tick hv hi

/-! ## Runs of bytes -/

theorem runSteps_succ_of_next {s t : State} (h : step s = .next t) (n : Nat) :
    runSteps (n + 1) s = runSteps n t := by
  rw [runSteps, h]

theorem runSteps_one (s : State) : runSteps 1 s = step s := by
  rw [runSteps]
  cases step s <;> rfl

/-- Where the port stands with the bytes `got` of a frame, the last of them arrived at `t`: the command has run if they
are all, and else they are being collected (R84, R85). -/
def frameSoFar (op : Opcode) (got : List Byte) (t : Time) (s : State) : Host.Outcome State Fault Refusal :=
  if got.length = op.paramCount then exec (assemble op got) { s with parser := .idle }
  else .next { s with parser := .collect op got t }

theorem frameSoFar_whole {op : Opcode} {got : List Byte} (h : got.length = op.paramCount) (t : Time) (s : State) :
    frameSoFar op got t s = exec (assemble op got) { s with parser := .idle } := if_pos h

theorem frameSoFar_short {op : Opcode} {got : List Byte} (h : got.length ≠ op.paramCount) (t : Time) (s : State) :
    frameSoFar op got t s = .next { s with parser := .collect op got t } := if_neg h

/-- A parameter byte in time takes the frame one byte further. -/
theorem step_param_frameSoFar {s : State} {b : Byte} {t t0 now : Time} {rest : List Input} {op : Opcode}
    {got : List Byte} (hv : s.cfg.Valid) (hi : s.inputs = .byte b t now :: rest)
    (hp : s.parser = .collect op got t0) (ht : (t - t0).toNat < s.cfg.tCmdTimeoutMs) :
    step s = frameSoFar op (got ++ [b]) t { s with inputs := rest, nowMs := now } :=
  step_byte_collect hv hi hp ht

/-- A known opcode byte begins its frame. -/
theorem step_opcode_frameSoFar {s : State} {op : Opcode} {t now : Time} {rest : List Input} (hv : s.cfg.Valid)
    (hi : s.inputs = .byte op.byte t now :: rest) (hp : s.parser = .idle) :
    step s = frameSoFar op [] t { s with inputs := rest, nowMs := now } := by
  by_cases hk : op.paramCount = 0
  · have hd : decode [op.byte] = .ok (assemble op [], []) :=
      decode_singleton_iff.mpr ⟨op, Opcode.ofByte_byte op, hk, rfl⟩
    rw [step_idle_whole hv hi hp hd, frameSoFar_whole (got := []) hk.symm]
    exact congrArg (exec _) (setIdle_of_idle (s := { s with inputs := rest, nowMs := now }) hp).symm
  · rw [step_idle_first hv hi hp (Opcode.ofByte_byte op) hk, frameSoFar_short (Ne.symm hk)]

/-- Parameter bytes in time, no more than the frame needs, take it further one by one. -/
theorem runSteps_params {op : Opcode} {rest : List Input} {ps : List Byte} :
    ∀ {ts : List (Time × Time)} {got : List Byte} {t0 : Time} {s : State}, s.cfg.Valid →
      s.parser = .collect op got t0 → s.inputs = byteInputs ps ts ++ rest → ts.length = ps.length →
      paced s.cfg ((t0, s.nowMs) :: ts) = true → got.length ≠ op.paramCount →
      got.length + ps.length ≤ op.paramCount →
      runSteps ts.length s = frameSoFar op (got ++ ps) (ts.getLastD (t0, s.nowMs)).1
        { s with inputs := rest, nowMs := (ts.getLastD (t0, s.nowMs)).2 } := by
  induction ps with
  | nil =>
    intro ts got t0 s _ hp hi hts _ hgot _
    obtain rfl := List.length_eq_zero_iff.mp hts
    have hi : s.inputs = rest := hi
    rw [List.append_nil, frameSoFar_short hgot, List.getLastD_nil, ← hp, ← hi]
    rfl
  | cons p ps ih =>
    intro ts got t0 s hv hp hi hts hpaced hgot hle
    obtain ⟨⟨t, now⟩, ts, rfl⟩ := List.exists_cons_of_length_eq_add_one hts
    rw [paced, Bool.and_eq_true, decide_eq_true_eq] at hpaced
    obtain ⟨ht, hpaced⟩ := hpaced
    have hstep := step_param_frameSoFar hv hi hp ht
    have hlen : (got ++ [p]).length = got.length + 1 := List.length_append
    rw [List.length_cons] at hle hts
    rw [List.length_cons, List.getLastD_cons, List.append_cons]
    by_cases hwhole : (got ++ [p]).length = op.paramCount
    · obtain rfl : ps = [] := List.length_eq_zero_iff.mp (by omega)
      obtain rfl := List.length_eq_zero_iff.mp (Nat.succ.inj hts)
      rw [List.append_nil]
      exact (runSteps_one s).trans hstep
    · rw [frameSoFar_short hwhole] at hstep
      rw [runSteps_succ_of_next hstep]
      exact ih (s := { s with inputs := byteInputs ps ts ++ rest, nowMs := now, parser := .collect op (got ++ [p]) t })
        hv rfl rfl (Nat.succ.inj hts) hpaced hwhole (by omega)

/-- The bytes of a frame that starts at an Idle port, whole or cut short, run it as far as they go. -/
theorem runSteps_frame {op : Opcode} {ps : List Byte} {ts : List (Time × Time)} {rest : List Input} {s : State}
    (hv : s.cfg.Valid) (hp : s.parser = .idle) (hi : s.inputs = byteInputs (op.byte :: ps) ts ++ rest)
    (hts : ts.length = ps.length + 1) (hpaced : paced s.cfg ts = true) (hle : ps.length ≤ op.paramCount)
    {last : Time × Time} (hlast : ts.getLast? = some last) :
    runSteps ts.length s = frameSoFar op ps last.1 { s with inputs := rest, nowMs := last.2 } := by
  obtain ⟨⟨t, now⟩, ts, rfl⟩ := List.exists_cons_of_length_eq_add_one hts
  obtain rfl : ts.getLastD (t, now) = last := by
    rwa [List.getLast?_cons, Option.some_inj, ← List.getLastD_eq_getLast?] at hlast
  have hstep := step_opcode_frameSoFar hv hi hp
  rw [List.length_cons]
  by_cases hk : op.paramCount = 0
  · obtain rfl : ps = [] := List.length_eq_zero_iff.mp (by omega)
    obtain rfl := List.length_eq_zero_iff.mp (Nat.succ.inj hts)
    exact (runSteps_one s).trans hstep
  · rw [frameSoFar_short (got := []) (Ne.symm hk)] at hstep
    rw [runSteps_succ_of_next hstep]
    exact runSteps_params (s := { s with inputs := byteInputs ps ts ++ rest, nowMs := now, parser := .collect op [] t })
      hv rfl rfl (Nat.succ.inj hts) hpaced (Ne.symm hk) (by simpa using hle)

/-- Settles O11: `runSteps_frame` on the command's own parameter bytes, which are all the frame needs. -/
theorem pacedFrameRunsItsCommand : Obligations.PacedFrameRunsItsCommand := by
  intro i ts rest s hv hp hts hpaced
  have hlen : i.params.length = i.opcode.paramCount := params_length i
  obtain ⟨last, hlast⟩ : ∃ last, ts.getLast? = some last := by
    obtain ⟨t, ts, rfl⟩ := List.exists_cons_of_length_eq_add_one hts
    exact ⟨_, List.getLast?_cons⟩
  rw [runSteps_frame (s := { s with inputs := byteInputs (encode i) ts ++ rest }) hv hp rfl hts hpaced hlen.le hlast,
    frameSoFar_whole hlen, assemble_params, hlast, ← hp]
  rfl

/-! ## The frame-level view (R88) -/

/-- Bytes that arrive at one moment, as a list of inputs. -/
theorem map_byte_eq_byteInputs (bs : List Byte) (now : Time) :
    bs.map (fun b => Input.byte b now now) = byteInputs bs (List.replicate bs.length (now, now)) := by
  rw [byteInputs, ← List.map_const, List.zipWith_map_right, List.zipWith_self]
  rfl

/-- Bytes that arrive at one moment are paced. -/
theorem paced_replicate {c : Config} (hc : c.Valid) (n : Nat) (t : Time × Time) :
    paced c (List.replicate n t) = true := by
  induction n with
  | zero => rfl
  | succ n ih =>
    cases n with
    | zero => rfl
    | succ n =>
      have hnow : (t.1 - t.1).toNat < c.tCmdTimeoutMs := by
        rw [BitVec.sub_self]
        exact hc.timeout_pos
      exact Bool.and_eq_true_iff.mpr ⟨decide_eq_true hnow, ih⟩

/-- The bytes of a frame at one moment, whole or cut short. -/
theorem runSteps_frame_at {op : Opcode} {ps : List Byte} {now : Time} {rest : List Input} {s : State}
    (hv : s.cfg.Valid) (hp : s.parser = .idle)
    (hi : s.inputs = (op.byte :: ps).map (fun b => .byte b now now) ++ rest) (hle : ps.length ≤ op.paramCount) :
    runSteps (ps.length + 1) s = frameSoFar op ps now { s with inputs := rest, nowMs := now } := by
  rw [map_byte_eq_byteInputs] at hi
  have hrun := runSteps_frame hv hp hi List.length_replicate (paced_replicate hv _ _) hle
    (List.getLast?_replicate.trans (if_neg (Nat.succ_ne_zero _)))
  rwa [List.length_replicate] at hrun

/-- A run goes on from where its first steps end. -/
theorem runSteps_add_of_next {m n : Nat} : ∀ {s t : State}, runSteps m s = .next t →
    runSteps (m + n) s = runSteps n t := by
  induction m with
  | zero =>
    rintro s t ⟨⟩
    rw [Nat.zero_add]
  | succ m ih =>
    intro s t h
    rw [Nat.succ_add]
    rw [runSteps] at h ⊢
    cases hs : step s with
    | next u =>
      rw [hs] at h
      exact ih h
    | fault | refused =>
      rw [hs] at h
      cases h

/-- The shortest silence that ends a frame is over the timeout, as long as the clock can tell it from none. -/
theorem timeout_le_silence {n : Nat} (hn : n < 2 ^ 32) (now : Time) : n ≤ (now + BitVec.ofNat 32 n - now).toNat := by
  rw [BitVec.add_comm, BitVec.add_sub_cancel, BitVec.toNat_ofNat, Nat.mod_eq_of_lt hn]

/-- A frame cut short and the silence after it get the failure reply, and nothing else (R86, R88). -/
theorem runSteps_trunc {op : Opcode} {got : List Byte} {now : Time} {rest : List Input} {s : State}
    (hv : s.cfg.Valid) (hp : s.parser = .idle) (hclock : s.cfg.tCmdTimeoutMs < 2 ^ 32)
    (hi : s.inputs = stmtInputs s.cfg now (.trunc op got) ++ rest) (hlt : got.length < op.paramCount) :
    runSteps (got.length + 1 + 1) s =
      .next (reply failByte { s with inputs := rest, nowMs := stmtClock s.cfg now (.trunc op got) }) := by
  rw [stmtInputs, List.append_assoc] at hi
  have hframe := runSteps_frame_at hv hp hi hlt.le
  rw [frameSoFar_short hlt.ne] at hframe
  have hpoll := step_poll_late
    (s := { s with
      nowMs := now, parser := .collect op got now, inputs := .poll (now + .ofNat 32 s.cfg.tCmdTimeoutMs) :: rest })
    hv rfl rfl (timeout_le_silence hclock now)
  rw [← hp] at hpoll
  exact (runSteps_add_of_next hframe).trans ((runSteps_one _).trans hpoll)

/-- The inputs of a statement, taken one by one, end where the frame-level view says (R88): a frame, whole or cut short,
by its bytes; a tick and an unknown byte by their one step. -/
theorem runSteps_stmtInputs {st : Stmt} {now : Time} {rest : List Input} {s : State} (hwf : st.wellFormed = true)
    (hv : s.cfg.Valid) (hclock : s.cfg.tCmdTimeoutMs < 2 ^ 32) (hp : s.parser = .idle)
    (hi : s.inputs = stmtInputs s.cfg now st ++ rest) :
    runSteps (stmtInputs s.cfg now st).length s =
      runStmt st { s with inputs := rest, nowMs := stmtClock s.cfg now st } := by
  cases st with
  | command i =>
    have hlen : i.params.length = i.opcode.paramCount := params_length i
    rw [stmtInputs, List.length_map, encode, List.length_cons, runSteps_frame_at hv hp hi hlen.le,
      frameSoFar_whole hlen, assemble_params, ← hp]
    rfl
  | tick t => exact (runSteps_one s).trans (step_tick hv hi)
  | trunc op got =>
    rw [stmtInputs, List.length_append, List.length_map, List.length_cons, List.length_singleton,
      runSteps_trunc hv hp hclock hi (of_decide_eq_true hwf)]
    rfl
  | byte b => exact (runSteps_one s).trans (step_idle_illegal hv hi hp (Option.isNone_iff_eq_none.mp hwf))

/-- Settles O12: `runSteps_stmtInputs` on the state that is given the statement's inputs. -/
theorem frameLevelViewAgrees : Obligations.FrameLevelViewAgrees :=
  fun st now rest s hwf hv hclock hp =>
    runSteps_stmtInputs (s := { s with inputs := stmtInputs s.cfg now st ++ rest }) hwf hv hclock hp rfl

end Sys2Proof.Machine
end

section
/-! PROOFS. 44_fade_walker.md: the segments partition the hexagon (R191), recovery and the walk enter it (R193, R194),
and the walk goes round it (R194). -/

namespace Sys2Proof.Machine

/-! ## Edges

An edge is a segment with its end vertex: one channel is 255, one is 0, and the third has a gap to cross. -/

/-- The two channels that stand still on edge `k` have their values. -/
def OnEdge (k : Fin 6) (c : Rgb) : Prop :=
  match k with
  | 0 => c.r = 255 ∧ c.b = 0
  | 1 => c.g = 255 ∧ c.b = 0
  | 2 => c.g = 255 ∧ c.r = 0
  | 3 => c.b = 255 ∧ c.r = 0
  | 4 => c.b = 255 ∧ c.g = 0
  | 5 => c.r = 255 ∧ c.g = 0

/-- How far the moving channel of edge `k` is from its end. -/
def gap (k : Fin 6) (c : Rgb) : Nat :=
  match k with
  | 0 => 255 - c.g.toNat
  | 1 => c.r.toNat
  | 2 => 255 - c.b.toNat
  | 3 => c.g.toNat
  | 4 => 255 - c.r.toNat
  | 5 => c.b.toNat

theorem gap_le (k : Fin 6) (c : Rgb) : gap k c ≤ 255 := by
  have hr := c.r.isLt
  have hg := c.g.isLt
  have hb := c.b.isLt
  fin_cases k <;> simp only [gap] <;> omega

theorem gap_vertex : ∀ k, gap k (vertex k) = 255 := by decide

/-- A guard asks for the edge, without its end. -/
theorem segmentGuard_iff (k : Fin 6) (c : Rgb) : segmentGuard k c = true ↔ OnEdge k c ∧ 0 < gap k c := by
  match k with
  | 0 => simp only [segmentGuard_zero_iff, OnEdge, gap, Nat.sub_pos_iff_lt, and_assoc]
  | 1 => simp only [segmentGuard_one_iff, OnEdge, gap, gt_iff_lt, and_assoc]
  | 2 => simp only [segmentGuard_two_iff, OnEdge, gap, Nat.sub_pos_iff_lt, and_assoc]
  | 3 => simp only [segmentGuard_three_iff, OnEdge, gap, gt_iff_lt, and_assoc]
  | 4 => simp only [segmentGuard_four_iff, OnEdge, gap, Nat.sub_pos_iff_lt, and_assoc]
  | 5 => simp only [segmentGuard_five_iff, OnEdge, gap, gt_iff_lt, and_assoc]

/-- A segment's step writes the moving channel alone. -/
theorem onEdge_segmentStep {k : Fin 6} {c : Rgb} (h : OnEdge k c) (s : Nat) : OnEdge k (segmentStep k s c) := by
  fin_cases k <;> exact h

/-- A segment's step shortens the gap by the step size, down to nothing. -/
theorem gap_segmentStep (k : Fin 6) (s : Nat) (c : Rgb) : gap k (segmentStep k s c) = gap k c - s := by
  have up (v : Byte) : 255 - (satUp v s).toNat = 255 - v.toNat - s := by
    rw [satUp_toNat]
    omega
  fin_cases k
  exacts [up c.g, satDown_toNat c.r s, up c.b, satDown_toNat c.g s, up c.r, satDown_toNat c.b s]

/-- An edge ends at the next vertex. -/
theorem eq_vertex_of_gap_eq_zero {k : Fin 6} {c : Rgb} (h : OnEdge k c) (hgap : gap k c = 0) : c = vertex (k + 1) := by
  have full {v : Byte} (hv : 255 - v.toNat = 0) : v = 255 := by bv_omega
  have empty {v : Byte} (hv : v.toNat = 0) : v = 0 := BitVec.eq_of_toNat_eq hv
  obtain ⟨r, g, b⟩ := c
  match k with
  | 0 => obtain ⟨rfl, rfl⟩ := h; obtain rfl : g = 255 := full hgap; rfl
  | 1 => obtain ⟨rfl, rfl⟩ := h; obtain rfl : r = 0 := empty hgap; rfl
  | 2 => obtain ⟨rfl, rfl⟩ := h; obtain rfl : b = 255 := full hgap; rfl
  | 3 => obtain ⟨rfl, rfl⟩ := h; obtain rfl : g = 0 := empty hgap; rfl
  | 4 => obtain ⟨rfl, rfl⟩ := h; obtain rfl : r = 255 := full hgap; rfl
  | 5 => obtain ⟨rfl, rfl⟩ := h; obtain rfl : b = 0 := empty hgap; rfl

/-! ## The partition (R191) -/

/-- A colour with a full and an empty channel is on the edge of those two. -/
theorem exists_onEdge {c : Rgb} (h : onHexagon c = true) : ∃ k, OnEdge k c := by
  have apart {v : Byte} (hfull : v = 255) (hempty : v = 0) : ∃ k, OnEdge k c :=
    absurd (hfull.symm.trans hempty) (by decide)
  obtain ⟨hr | hg | hb, hr' | hg' | hb'⟩ := (onHexagon_iff c).mp h
  exacts [apart hr hr', ⟨5, hr, hg'⟩, ⟨0, hr, hb'⟩, ⟨2, hg, hr'⟩, apart hg hg', ⟨1, hg, hb'⟩, ⟨3, hb, hr'⟩,
    ⟨4, hb, hg'⟩, apart hb hb']

/-- A colour on an edge is on its segment, or at the vertex where the next segment starts. -/
theorem exists_segmentGuard_of_onEdge {k : Fin 6} {c : Rgb} (h : OnEdge k c) : ∃ j, segmentGuard j c = true := by
  rcases Nat.eq_zero_or_pos (gap k c) with hgap | hgap
  · exact ⟨k + 1, eq_vertex_of_gap_eq_zero h hgap ▸ segmentGuard_vertex (k + 1)⟩
  · exact ⟨k, (segmentGuard_iff k c).mpr ⟨h, hgap⟩⟩

theorem exists_segmentGuard {c : Rgb} (h : onHexagon c = true) : ∃ k, segmentGuard k c = true :=
  let ⟨_, hk⟩ := exists_onEdge h
  exists_segmentGuard_of_onEdge hk

theorem onHexagon_of_onEdge {k : Fin 6} {c : Rgb} (h : OnEdge k c) : onHexagon c = true :=
  let ⟨_, hj⟩ := exists_segmentGuard_of_onEdge h
  onHexagon_of_segmentGuard hj

/-- Settles O40: the guard of a hexagon point's edge or of the next, which no other guard shares; and no guard holds off
the hexagon. -/
theorem hexagonPartitionedBySegments : Obligations.HexagonPartitionedBySegments := by
  refine ⟨fun c h => ?_, fun c h k => ?_⟩
  · obtain ⟨k, hk⟩ := exists_segmentGuard h
    exact ⟨k, hk, fun j hj => segmentGuard_unique hj hk⟩
  · by_contra hk
    exact absurd (onHexagon_of_segmentGuard (Bool.of_not_eq_false hk)) (by simp [h])

/-! ## Into the hexagon (R193, R194) -/

/-- The greatest channel value. -/
def Rgb.maxValue (c : Rgb) : Nat := (c.get (highest c)).toNat

/-- The least channel value. -/
def Rgb.minValue (c : Rgb) : Nat := (c.get (lowest c)).toNat

theorem Rgb.get_le_maxValue (c : Rgb) (ch : Channel) : (c.get ch).toNat ≤ c.maxValue := (highest_isFirstMax c ch).1

theorem Rgb.minValue_le_get (c : Rgb) (ch : Channel) : c.minValue ≤ (c.get ch).toNat := (lowest_isLastMin c ch).1

theorem onHexagon_iff_get (c : Rgb) : onHexagon c = true ↔ (∃ ch, c.get ch = 255) ∧ ∃ ch, c.get ch = 0 := by
  have some_channel (v : Byte) : (c.r = v ∨ c.g = v ∨ c.b = v) ↔ ∃ ch, c.get ch = v := by
    refine ⟨?_, ?_⟩
    · rintro (h | h | h)
      exacts [⟨.r, h⟩, ⟨.g, h⟩, ⟨.b, h⟩]
    · rintro ⟨_ | _ | _, h⟩
      exacts [.inl h, .inr (.inl h), .inr (.inr h)]
  rw [onHexagon_iff, some_channel, some_channel]

/-- The hexagon by its extreme values. -/
theorem onHexagon_iff_extremes (c : Rgb) : onHexagon c = true ↔ 255 ≤ c.maxValue ∧ c.minValue = 0 := by
  rw [onHexagon_iff_get]
  refine and_congr ⟨?_, fun h => ⟨highest c, ?_⟩⟩ ⟨?_, fun h => ⟨lowest c, BitVec.eq_of_toNat_eq h⟩⟩
  · rintro ⟨ch, hch⟩
    exact (congrArg BitVec.toNat hch).ge.trans (c.get_le_maxValue ch)
  · have hlt : c.maxValue < 256 := (c.get (highest c)).isLt
    exact BitVec.eq_of_toNat_eq (show c.maxValue = 255 by omega)
  · rintro ⟨ch, hch⟩
    exact Nat.eq_zero_of_le_zero ((c.minValue_le_get ch).trans (congrArg BitVec.toNat hch).le)

/-- The step `f` moves the extreme values apart by `s` each, until they are 255 and 0. -/
def Stretches (s : Nat) (f : Rgb → Rgb) : Prop :=
  ∀ c, min 255 (c.maxValue + s) ≤ (f c).maxValue ∧ (f c).minValue ≤ c.minValue - s

theorem recover_stretches (s : Nat) : Stretches s (recover s) := by
  intro c
  constructor
  · calc min 255 (c.maxValue + s)
      _ = ((recover s c).get (highest c)).toNat := by rw [recover_get_highest, satUp_toNat, Rgb.maxValue]
      _ ≤ (recover s c).maxValue := Rgb.get_le_maxValue _ _
  · calc (recover s c).minValue
      _ ≤ ((recover s c).get (lowest c)).toNat := Rgb.minValue_le_get _ _
      _ = c.minValue - s := by rw [recover_get_lowest, satDown_toNat, Rgb.minValue]

/-- The hexagon is closed under FadeStep: a step on an edge stays on it. -/
theorem onHexagon_fadeRgb {c : Rgb} (h : onHexagon c = true) (s : Nat) : onHexagon (fadeRgb s c) = true := by
  obtain ⟨k, hk⟩ := exists_segmentGuard h
  obtain ⟨hedge, -⟩ := (segmentGuard_iff k c).mp hk
  rw [fadeRgb_of_segmentGuard hk]
  exact onHexagon_of_onEdge (onEdge_segmentStep hedge s)

/-- FadeStep stretches as Recover does off the hexagon, and on it there is nothing left to stretch. -/
theorem fadeRgb_stretches (s : Nat) : Stretches s (fadeRgb s) := by
  intro c
  cases h : onHexagon c with
  | true =>
    obtain ⟨hmax, hmin⟩ := (onHexagon_iff_extremes _).mp (onHexagon_fadeRgb h s)
    exact ⟨(Nat.min_le_left _ _).trans hmax, hmin ▸ Nat.zero_le _⟩
  | false =>
    rw [fadeRgb_of_off h]
    exact recover_stretches s c

theorem Stretches.iterate {s : Nat} {f : Rgb → Rgb} (hf : Stretches s f) (n : Nat) (c : Rgb) :
    min 255 (n * s) ≤ (f^[n] c).maxValue ∧ (f^[n] c).minValue ≤ 255 - n * s := by
  induction n with
  | zero =>
    have hlt : (c.get (lowest c)).toNat < 256 := BitVec.isLt _
    rw [Nat.zero_mul]
    exact ⟨Nat.zero_le _, Nat.le_of_lt_succ hlt⟩
  | succ n ih =>
    obtain ⟨hmax, hmin⟩ := hf (f^[n] c)
    rw [Function.iterate_succ_apply', Nat.succ_mul]
    omega

/-- `ceil(255 / s)` in the form of a quotient. -/
theorem crossing_eq {s : Nat} (hs : 1 ≤ s) : crossing s = 254 / s + 1 := by
  rw [crossing, show 255 + s - 1 = 254 + s by omega, Nat.add_div_right _ hs]

/-- Enough stretching steps cross the whole range of a channel. -/
theorem Stretches.reaches_hexagon {s n : Nat} {f : Rgb → Rgb} (hf : Stretches s f) (hs : 1 ≤ s) (hn : crossing s ≤ n)
    (c : Rgb) : onHexagon (f^[n] c) = true := by
  have hcross : 255 ≤ n * s :=
    calc 255 ≤ s * (254 / s + 1) := Nat.lt_mul_div_succ 254 hs
      _ = crossing s * s := by rw [crossing_eq hs, Nat.mul_comm]
      _ ≤ n * s := Nat.mul_le_mul_right s hn
  obtain ⟨hmax, hmin⟩ := hf.iterate n c
  exact (onHexagon_iff_extremes _).mpr (by omega)

/-- Settles O43: Recover stretches, so `ceil(255 / s)` steps reach the hexagon from anywhere. -/
theorem recoveryReachesHexagon : Obligations.RecoveryReachesHexagon :=
  fun s c hs _ => ⟨crossing s, le_rfl, (recover_stretches s).reaches_hexagon hs le_rfl c⟩

/-- Settles O44: FadeStep keeps the hexagon, and stretches, so `ceil(255 / s)` steps and any more end on it. -/
theorem fadeStaysOnHexagon : Obligations.FadeStaysOnHexagon :=
  fun s c hs _ => ⟨fun h => onHexagon_fadeRgb h s, crossing s, le_rfl,
    fun _ hm => (fadeRgb_stretches s).reaches_hexagon hs hm c⟩

/-! ## Round the hexagon (R194) -/

section Walk

variable {s : Nat} {k : Fin 6} {c : Rgb} (h : segmentGuard k c = true)
include h

/-- The walk stays on a segment while its steps do not cross the gap. -/
theorem fadeRgb_iterate_on_segment {n : Nat} (hn : n * s < gap k c) :
    segmentGuard k ((fadeRgb s)^[n] c) = true ∧ gap k ((fadeRgb s)^[n] c) = gap k c - n * s := by
  induction n with
  | zero => exact ⟨h, by rw [Nat.zero_mul]; rfl⟩
  | succ n ih =>
    rw [Nat.succ_mul] at hn ⊢
    obtain ⟨hguard, hgap⟩ := ih (by omega)
    obtain ⟨hedge, -⟩ := (segmentGuard_iff k _).mp hguard
    have hgap' := gap_segmentStep k s ((fadeRgb s)^[n] c)
    rw [Function.iterate_succ_apply', fadeRgb_of_segmentGuard hguard, segmentGuard_iff]
    exact ⟨⟨onEdge_segmentStep hedge s, by omega⟩, by omega⟩

/-- The step that crosses what is left of the gap ends exactly at the next vertex. -/
theorem fadeRgb_iterate_to_vertex {n : Nat} (hn : n * s < gap k c) (hcross : gap k c ≤ (n + 1) * s) :
    (fadeRgb s)^[n + 1] c = vertex (k + 1) := by
  obtain ⟨hguard, hgap⟩ := fadeRgb_iterate_on_segment h hn
  obtain ⟨hedge, -⟩ := (segmentGuard_iff k _).mp hguard
  rw [Nat.succ_mul] at hcross
  rw [Function.iterate_succ_apply', fadeRgb_of_segmentGuard hguard]
  refine eq_vertex_of_gap_eq_zero (onEdge_segmentStep hedge s) ?_
  rw [gap_segmentStep]
  omega

/-- The walk takes `ceil(gap / s)` steps to the next vertex. -/
theorem fadeRgb_iterate_ceil (hs : 1 ≤ s) : (fadeRgb s)^[(gap k c - 1) / s + 1] c = vertex (k + 1) := by
  obtain ⟨-, hpos⟩ := (segmentGuard_iff k c).mp h
  have hbefore : (gap k c - 1) / s * s ≤ gap k c - 1 := Nat.div_mul_le_self _ _
  have hafter : gap k c - 1 < ((gap k c - 1) / s + 1) * s := Nat.mul_comm s _ ▸ Nat.lt_mul_div_succ _ hs
  exact fadeRgb_iterate_to_vertex h (by omega) (by omega)

end Walk

/-- Settles O45: the gap is at most 255, so `ceil(gap / s)` is at most `ceil(255 / s)`. -/
theorem fadeReachesSegmentEnd : Obligations.FadeReachesSegmentEnd := by
  intro s k c hs _ h
  have hle : (gap k c - 1) / s ≤ 254 / s := Nat.div_le_div_right (Nat.sub_le_sub_right (gap_le k c) 1)
  exact ⟨(gap k c - 1) / s + 1, Nat.succ_pos _, crossing_eq hs ▸ Nat.succ_le_succ hle, fadeRgb_iterate_ceil h hs⟩

/-- From a vertex the gap is 255. -/
theorem fadeRgb_iterate_crossing {s : Nat} (hs : 1 ≤ s) (k : Fin 6) :
    (fadeRgb s)^[crossing s] (vertex k) = vertex (k + 1) := by
  have hceil := fadeRgb_iterate_ceil (segmentGuard_vertex k) hs
  rwa [gap_vertex, ← crossing_eq hs] at hceil

/-- Crossings take the vertices to each other in the order of their numbers. -/
theorem vertex_semiconj {s : Nat} (hs : 1 ≤ s) : Function.Semiconj vertex (· + 1) (fadeRgb s)^[crossing s] :=
  fun k => (fadeRgb_iterate_crossing hs k).symm

theorem six_successors : ∀ k : Fin 6, (· + 1)^[6] k = k := by decide

/-- Settles O46: a crossing takes a vertex to the next, its earlier steps are on the segment, and the sixth is back. -/
theorem fadeCycleReturns : Obligations.FadeCycleReturns := by
  intro s k hs _
  refine ⟨fadeRgb_iterate_crossing hs k, fun m hm => ?_, ?_⟩
  · have hle : m ≤ 254 / s := Nat.le_of_lt_succ (hm.trans_eq (crossing_eq hs))
    have hgap : m * s < gap k (vertex k) := by
      rw [gap_vertex]
      exact Nat.lt_succ_of_le ((Nat.le_div_iff_mul_le hs).mp hle)
    exact (fadeRgb_iterate_on_segment (segmentGuard_vertex k) hgap).1
  · rw [Nat.mul_comm, Function.iterate_mul, ← (vertex_semiconj hs).iterate_right 6 k, six_successors]

end Sys2Proof.Machine
end

section
/-! PROOFS. 10_state.md: the "written by" column (R22); and what follows from it: runs go on (60_exceptions.md R220),
power (R230), and the round trip of the desynchroniser (43_async.md R181). -/

namespace Sys2Proof.Machine

/-! ## What a command may write (R22) -/

/-- `t` differs from `s` at most in the registers that the "written by" column gives the command `i`. -/
def Writes (i : Instr) (s t : State) : Prop :=
  match i with
  | .init _ => ∃ b p r m j lt x l evs bs, t = { s with
      started := b, powered := p, rate := r, msPerDeg := m, jumpMs := j, lastT := lt, idx := x, line := l, trace := evs
      rsp := bs }
  | .setColor _ _ _ => ∃ c h bs, t = { s with rgb := c, hold := h, rsp := bs }
  | .getColor | .getMode | .isAsync | .getSpeed | .isOn => ∃ bs, t = { s with rsp := bs }
  | .setMode _ => ∃ m x l evs bs, t = { s with mode := m, idx := x, line := l, trace := evs, rsp := bs }
  | .startAsync | .stopAsync => ∃ a x l evs bs, t = { s with
      async := a, idx := x, line := l, trace := evs, rsp := bs }
  | .setSpeed _ => ∃ v r m j bs, t = { s with speed := v, rate := r, msPerDeg := m, jumpMs := j, rsp := bs }
  | .turnOn => ∃ p x l evs bs, t = { s with powered := p, idx := x, line := l, trace := evs, rsp := bs }
  | .turnOff => ∃ p l evs bs, t = { s with powered := p, line := l, trace := evs, rsp := bs }
  | .sendPulse _ _ => ∃ x l evs bs, t = { s with idx := x, line := l, trace := evs, rsp := bs }

/-- Every command keeps to its column. -/
theorem exec_writes {i : Instr} {s t : State} (h : exec i s = .next t) : Writes i s t := by
  have gate {silent body} (hreply : Writes i s (reply silent s)) (hbody : Writes i s (body s)) :
      Writes i s (whenStarted silent body s) := whenStarted_elim hreply hbody
  cases i with
  | getColor | getMode | isAsync | getSpeed | isOn => cases h; exact ⟨_, rfl⟩
  | init p0 =>
    cases hs : s.started with
    | true =>
      rw [exec_init_started hs] at h
      cases h
      exact ⟨_, _, _, _, _, _, _, _, _, _, rfl⟩
    | false =>
      rw [exec_init_stopped hs] at h
      cases h
      split <;> exact ⟨_, _, _, _, _, _, _, _, _, _, rfl⟩
  | setColor r g b => cases h; exact gate ⟨_, _, _, rfl⟩ ⟨_, _, _, rfl⟩
  | setSpeed value => cases h; exact gate ⟨_, _, _, _, _, rfl⟩ ⟨_, _, _, _, _, rfl⟩
  | setMode id =>
    cases h
    refine gate ⟨_, _, _, _, _, rfl⟩ ?_
    split
    · exact ⟨_, _, _, _, _, rfl⟩
    · unfold leaveUser
      rw [resync_eq, unpoweredRestore_eq]
      split <;> exact ⟨_, _, _, _, _, rfl⟩
  | startAsync =>
    cases h
    refine gate ⟨_, _, _, _, _, rfl⟩ ?_
    rw [sweepPulses_eq, unpoweredRestore_eq]
    exact ⟨_, _, _, _, _, rfl⟩
  | stopAsync =>
    cases h
    refine gate ⟨_, _, _, _, _, rfl⟩ ?_
    rw [resync_eq, unpoweredRestore_eq]
    exact ⟨_, _, _, _, _, rfl⟩
  | turnOn =>
    cases h
    refine gate ⟨_, _, _, _, _, rfl⟩ ?_
    split <;> exact ⟨_, _, _, _, _, rfl⟩
  | turnOff =>
    cases h
    refine gate ⟨_, _, _, _, rfl⟩ ?_
    split <;> exact ⟨_, _, _, _, rfl⟩
  | sendPulse count width =>
    cases h
    refine gate ⟨_, _, _, _, rfl⟩ ?_
    rw [pulseTrain_eq, unpoweredRestore_eq]
    split <;> exact ⟨_, _, _, _, rfl⟩

/-! ## What a tick may write (R22) -/

/-- `t` differs from `s` at most in the registers that the column gives Tick: the line, its index and the trace; and, if
a JUMP or FADE block advanced, the colour with its holds and the time of it, in JUMP also the hue state. -/
def TickWrites (now : Time) (s t : State) : Prop :=
  ∃ x l evs, t = { s with idx := x, line := l, trace := evs } ∨
    (∃ c h j, s.mode = .jump ∧ t = { s with
      idx := x, line := l, trace := evs, rgb := c, hold := h, jumpIdx := j, lastT := now }) ∨
    (∃ c h, s.mode = .fade ∧ t = { s with idx := x, line := l, trace := evs, rgb := c, hold := h, lastT := now })

/-- Every tick keeps to its column. -/
theorem tick_writes (now : Time) (s : State) : TickWrites now s (tick now s) := by
  refine tick_elim ⟨_, _, _, .inl rfl⟩ ⟨_, _, _, .inl rfl⟩ ?_ (fun hmode => ?_) (fun hmode => ?_) <;> rw [loopRGB_eq]
  · exact ⟨_, _, _, .inl rfl⟩
  · exact ⟨_, _, _, .inr (.inl ⟨_, _, _, hmode, rfl⟩)⟩
  · exact ⟨_, _, _, .inr (.inr ⟨_, _, hmode, rfl⟩)⟩

/-- Settles O53: what `Writes` leaves out of a command's column is unchanged, and so with `TickWrites`. -/
theorem registersHaveOnlyTheirWriters : Obligations.RegistersHaveOnlyTheirWriters := by
  refine ⟨fun i s t h => ?_, ?_⟩
  · have hw : Writes i s t := exec_writes h
    cases i with
    | init p0 => obtain ⟨_, _, _, _, _, _, _, _, _, _, rfl⟩ := hw; simp [Instr.opcode]
    | setColor r g b => obtain ⟨_, _, _, rfl⟩ := hw; simp [Instr.opcode]
    | getColor | getMode | isAsync | getSpeed | isOn => obtain ⟨_, rfl⟩ := hw; simp
    | setMode id => obtain ⟨_, _, _, _, _, rfl⟩ := hw; simp [Instr.opcode]
    | startAsync | stopAsync => obtain ⟨_, _, _, _, _, rfl⟩ := hw; simp [Instr.opcode]
    | setSpeed value => obtain ⟨_, _, _, _, _, rfl⟩ := hw; simp [Instr.opcode]
    | turnOn => obtain ⟨_, _, _, _, _, rfl⟩ := hw; simp [Instr.opcode]
    | turnOff => obtain ⟨_, _, _, _, rfl⟩ := hw; simp [Instr.opcode]
    | sendPulse count width => obtain ⟨_, _, _, _, rfl⟩ := hw; simp [Instr.opcode]
  · rintro now s t rfl
    obtain ⟨_, _, _, heq | ⟨_, _, _, hmode, heq⟩ | ⟨_, _, hmode, heq⟩⟩ := tick_writes now s <;> rw [heq]
    · simp
    · simp [hmode]
    · simp [hmode]

/-! ## Runs go on (R220) -/

theorem exec_cfg {i : Instr} {s t : State} (h : exec i s = .next t) : t.cfg = s.cfg := by
  obtain ⟨⟨hcfg, -⟩, -⟩ := registersHaveOnlyTheirWriters.1 i s t h
  exact hcfg

theorem tick_cfg (now : Time) (s : State) : (tick now s).cfg = s.cfg := by
  obtain ⟨⟨hcfg, -⟩, -⟩ := registersHaveOnlyTheirWriters.2 now s _ rfl
  exact hcfg

/-- No step writes the configuration. -/
theorem step_cfg {s t : State} (h : step s = .next t) : t.cfg = s.cfg := by
  obtain ⟨_, _, _, u, hu, hcases⟩ := step_cases h
  have taken : u.cfg = s.cfg := by rw [hu]
  rcases hcases with ⟨_, _, _, -, rfl⟩ | rfl | ⟨now, rfl⟩ | ⟨rest, -, rfl⟩ | ⟨i, hexec⟩ | ⟨-, rfl⟩ |
    ⟨_, _, -, -, rfl⟩ | ⟨_, _, _, _, _, -, -, rfl⟩
  · exact taken
  · exact taken
  · exact (tick_cfg now u).trans taken
  · rfl
  · exact (exec_cfg hexec).trans taken
  · exact taken
  · exact taken
  · exact taken

theorem runSteps_isNext (n : Nat) {s : State} (hv : s.cfg.Valid) : ∃ t, runSteps n s = .next t := by
  induction n generalizing s with
  | zero => exact ⟨s, rfl⟩
  | succ n ih =>
    obtain ⟨u, hu⟩ := step_isNext hv
    rw [runSteps_succ_of_next hu]
    exact ih (step_cfg hu ▸ hv)

/-- Settles O17: a step answers a next state of the same configuration; with nothing scheduled and an Idle port, which
has nothing to time out, that is a tick at the drawn clock value. -/
theorem sequencerNeverHalts : Obligations.SequencerNeverHalts := by
  refine ⟨fun n s hv => runSteps_isNext n hv, fun s hv hi hp => ⟨Config.freeNowMs s.draws, ?_⟩⟩
  have hquiet : ¬ expired (Config.freeNowMs s.draws)
      { s with nowMs := Config.freeNowMs s.draws, draws := s.draws + 1 } = true := by
    simp [expired, hp]
  rw [step_unscheduled hv hi]
  exact congrArg _ (if_neg hquiet)

/-! ## Power (R230) -/

/-- INIT 0 does not turn the lights on. -/
theorem exec_init_zero_powered {s t : State} (hp : s.powered = false) (h : exec (.init 0) s = .next t) :
    t.powered = false := by
  cases hs : s.started with
  | true =>
    rw [exec_init_started hs] at h
    cases h
    exact hp
  | false =>
    rw [(initEffect 0 s).2.2 hs rfl] at h
    cases h
    rfl

/-- Only TURN_ON and INIT with a non-zero operand turn the lights on. -/
theorem exec_powers_up {i : Instr} {s t : State} (h : exec i s = .next t) (hoff : s.powered = false)
    (hon : t.powered = true) : i = .turnOn ∨ ∃ p0, p0 ≠ 0 ∧ i = .init p0 := by
  have hmoved : t.powered ≠ s.powered := by simp [hoff, hon]
  obtain ⟨-, -, hwriter, -⟩ := registersHaveOnlyTheirWriters.1 i s t h
  have hwriter := hwriter hmoved
  cases i with
  | turnOn => exact .inl rfl
  | init p0 =>
    refine .inr ⟨p0, ?_, rfl⟩
    rintro rfl
    rw [exec_init_zero_powered hoff h] at hon
    cases hon
  | turnOff =>
    rw [exec_turnOff_ignored (.inr hoff)] at h
    cases h
    exact absurd rfl hmoved
  | _ => simp [Instr.opcode] at hwriter

/-- A tick leaves the flags and the speed as they are. -/
theorem tick_flags (now : Time) (s : State) : (tick now s).started = s.started ∧ (tick now s).powered = s.powered ∧
    (tick now s).mode = s.mode ∧ (tick now s).speed = s.speed := by
  obtain ⟨_, _, _, heq | ⟨_, _, _, -, heq⟩ | ⟨_, _, -, heq⟩⟩ := tick_writes now s <;>
    rw [heq] <;> exact ⟨rfl, rfl, rfl, rfl⟩

/-- Settles O56: the two commands that power up, the unpowered tick, and TURN_OFF's column. -/
theorem powerStates : Obligations.PowerStates := by
  refine ⟨fun _ _ _ => exec_powers_up, fun now s => ?_, fun now _ hs hp => ⟨[.lo], tick_unpowered hs hp now⟩,
    fun _ _ h => exec_writes h⟩
  obtain ⟨-, hpowered, -⟩ := tick_flags now s
  exact hpowered

/-! ## The desynchroniser's round trip (R181) -/

theorem ticks_flags (nows : List Time) (s : State) : (ticks nows s).started = s.started ∧
    (ticks nows s).powered = s.powered ∧ (ticks nows s).mode = s.mode ∧ (ticks nows s).speed = s.speed := by
  induction nows generalizing s with
  | nil => exact ⟨rfl, rfl, rfl, rfl⟩
  | cons now nows ih =>
    obtain ⟨hs, hp, hm, hv⟩ := ih (tick now s)
    obtain ⟨hs', hp', hm', hv'⟩ := tick_flags now s
    exact ⟨hs.trans hs', hp.trans hp', hm.trans hm', hv.trans hv'⟩

/-- Settles O37: START_ASYNC and ticks keep the flags and the speed, and STOP_ASYNC resyncs whatever they left. -/
theorem asyncRoundTripRestoresIndexZero : Obligations.AsyncRoundTripRestoresIndexZero := by
  intro s u nows hs h
  obtain ⟨_, _, _, _, _, hu⟩ : Writes .startAsync s u := exec_writes h
  obtain ⟨hstarted, hpowered, hmode, hspeed⟩ : (ticks nows u).started = s.started ∧
      (ticks nows u).powered = s.powered ∧ (ticks nows u).mode = s.mode ∧ (ticks nows u).speed = s.speed := by
    have hflags := ticks_flags nows u
    rwa [hu] at hflags ⊢
  refine ⟨asyncFlagIsNeverRead.1 s u hs h, _, (stopAsyncEffect _).2 (hstarted.trans hs), rfl, rfl, hmode, hspeed,
    hpowered, ?_⟩
  rw [← hpowered]
  rfl

end Sys2Proof.Machine
end

section
/-! PROOFS. What commands and ticks put on the line: raw pulses only in USER (40_pulse_encoder.md R115), the believed
index as an ideal receiver hears it (R111), and the busy times (70_reset_and_hazards.md R260, R261). -/

namespace Sys2Proof.Machine

/-! ## The line activity of a command -/

/-- The four things a command can do on the line, apart from driving it LOW at its end. -/
inductive LineAct
  | quiet
  | resync
  | sweep
  | pulses (n w : Nat)

/-- The events of an activity. -/
def LineAct.events (c : Config) : LineAct → List LineEvent
  | .quiet => []
  | .resync => resyncEvents c
  | .sweep => ((sweepWidths c).map (Machine.pulses 1)).flatten
  | .pulses n w => Machine.pulses n w

/-- The index that an activity leaves, from the index `x`. -/
def LineAct.idxAfter (c : Config) (x : Index) : LineAct → Index
  | .quiet => x
  | .resync => 0
  | .sweep => x + BitVec.ofNat 3 (nSweep c)
  | .pulses n _ => x + BitVec.ofNat 3 n

/-- The line activity of the command `i` (R114, R150, R152, R170, R180, R181). -/
def lineAct (i : Instr) (s : State) : LineAct :=
  match i with
  | .init p0 => if s.started = false ∧ p0 ≠ 0 then .resync else .quiet
  | .setMode id => if s.started = true ∧ s.mode = .user ∧ id.toNat < 3 then .resync else .quiet
  | .startAsync => if s.started = true then .sweep else .quiet
  | .stopAsync => if s.started = true then .resync else .quiet
  | .turnOn => if s.started = true ∧ s.powered = false then .resync else .quiet
  | .sendPulse count width =>
    if s.started = true ∧ s.mode = .user then .pulses count.toNat width.toNat else .quiet
  | .setColor _ _ _ | .getColor | .getMode | .isAsync | .setSpeed _ | .getSpeed | .turnOff | .isOn => .quiet

/-- From `s` to `t` the line shows the activity `a`, and then LO or nothing; and the index is the one it leaves. -/
def Shows (a : LineAct) (s t : State) : Prop :=
  ∃ p, t.trace = s.trace ++ (a.events s.cfg ++ restoreEvents p) ∧ t.idx = a.idxAfter s.cfg s.idx

/-- What touches neither the trace nor the index is quiet. -/
theorem Shows.quiet {s t : State} (htrace : t.trace = s.trace) (hidx : t.idx = s.idx) : Shows .quiet s t :=
  ⟨true, htrace.trans (List.append_nil _).symm, hidx⟩

/-- Before INIT every command but INIT is quiet. -/
theorem lineAct_stopped {i : Instr} {s : State} (hs : s.started = false) (hi : ∀ p0, i ≠ .init p0) :
    lineAct i s = .quiet := by
  cases i with
  | init p0 => exact absurd rfl (hi p0)
  | _ => simp [lineAct, hs]

theorem exec_init_shows {p0 : Byte} {s t : State} (h : exec (.init p0) s = .next t) :
    Shows (lineAct (.init p0) s) s t := by
  rw [lineAct]
  cases hs : s.started with
  | true =>
    rw [exec_init_started hs] at h
    cases h
    exact .quiet rfl rfl
  | false =>
    by_cases hp0 : p0 = 0
    · rw [(initEffect p0 s).2.2 hs hp0] at h
      cases h
      rw [if_neg (by simp [hp0])]
      exact ⟨false, rfl, rfl⟩
    · rw [(initEffect p0 s).2.1 hs hp0] at h
      cases h
      rw [if_pos ⟨rfl, hp0⟩]
      exact ⟨true, by rfl, rfl⟩

/-- An id is no mode, or a mode's. -/
theorem Mode.id_cases (id : Byte) : 3 < id.toNat ∨ ∃ m : Mode, id = m.id := by
  by_cases hid : 3 < id.toNat
  · exact .inl hid
  · obtain h | h | h | h : id = 0 ∨ id = 1 ∨ id = 2 ∨ id = 3 := by bv_omega
    exacts [.inr ⟨.solid, h⟩, .inr ⟨.jump, h⟩, .inr ⟨.fade, h⟩, .inr ⟨.user, h⟩]

theorem Mode.id_lt_three (m : Mode) : m.id.toNat < 3 ↔ m ≠ .user := by
  cases m <;> decide

/-- The three things SET_MODE does in a started block: fail, change the mode alone, or leave USER (R152). -/
theorem exec_setMode_cases {id : Byte} {s t : State} (hs : s.started = true) (h : exec (.setMode id) s = .next t) :
    (3 < id.toNat ∧ t = reply failByte s) ∨
      ∃ m : Mode, id = m.id ∧
        ((s.mode ≠ .user ∨ m = .user) ∧ t = reply ackByte { s with mode := m } ∨
          (s.mode = .user ∧ m ≠ .user) ∧ t = reply ackByte { unpoweredRestore (resync s) with mode := m }) := by
  obtain hid | ⟨m, rfl⟩ := Mode.id_cases id
  · rw [exec_setMode_unknown hid] at h
    cases h
    exact .inl ⟨hid, rfl⟩
  · rw [exec_setMode_known hs] at h
    cases h
    refine .inr ⟨m, rfl, ?_⟩
    by_cases hleaves : s.mode = .user ∧ m ≠ .user
    · exact .inr ⟨hleaves, by rw [leaveUser_leaves hleaves.1 hleaves.2]⟩
    · have hstays : s.mode ≠ .user ∨ m = .user := by tauto
      exact .inl ⟨hstays, by rw [leaveUser_stays hstays]⟩

theorem exec_setMode_shows {id : Byte} {s t : State} (hs : s.started = true) (h : exec (.setMode id) s = .next t) :
    Shows (lineAct (.setMode id) s) s t := by
  obtain ⟨hid, rfl⟩ | ⟨m, rfl, ⟨hstays, rfl⟩ | ⟨hleaves, rfl⟩⟩ := exec_setMode_cases hs h
  · have hact : lineAct (.setMode id) s = .quiet := if_neg (by omega)
    exact hact ▸ .quiet rfl rfl
  · have hact : lineAct (.setMode m.id) s = .quiet := if_neg (by rw [Mode.id_lt_three]; tauto)
    exact hact ▸ .quiet rfl rfl
  · have hact : lineAct (.setMode m.id) s = .resync := if_pos ⟨hs, hleaves.1, (Mode.id_lt_three m).mpr hleaves.2⟩
    rw [hact, unpoweredRestore_eq, resync_eq]
    exact ⟨s.powered, List.append_assoc _ _ _, rfl⟩

/-- Every command shows its line activity. -/
theorem exec_shows {i : Instr} {s t : State} (h : exec i s = .next t) : Shows (lineAct i s) s t := by
  by_cases hi : ∃ p0, i = .init p0
  · obtain ⟨p0, rfl⟩ := hi
    exact exec_init_shows h
  cases hs : s.started with
  | false =>
    rw [exec_stopped hs (by simpa using hi)] at h
    cases h
    rw [lineAct_stopped hs (by simpa using hi)]
    exact .quiet rfl rfl
  | true =>
    cases i with
    | init p0 => exact absurd ⟨p0, rfl⟩ hi
    | getColor | getMode | isAsync | getSpeed | isOn => cases h; exact .quiet rfl rfl
    | setColor r g b =>
      rw [(setColorEffect r g b s).2 hs] at h
      cases h
      exact .quiet rfl rfl
    | setSpeed value =>
      rw [(setSpeedEffect value s).2 hs] at h
      cases h
      exact .quiet rfl rfl
    | setMode id => exact exec_setMode_shows hs h
    | startAsync =>
      rw [(startAsyncEffect s).2 hs] at h
      cases h
      rw [lineAct, if_pos hs]
      exact ⟨s.powered, List.append_assoc _ _ _, rfl⟩
    | stopAsync =>
      rw [(stopAsyncEffect s).2 hs] at h
      cases h
      rw [lineAct, if_pos hs]
      exact ⟨s.powered, List.append_assoc _ _ _, rfl⟩
    | turnOn =>
      rw [lineAct]
      cases hp : s.powered with
      | true =>
        rw [exec_turnOn_ignored (.inr hp)] at h
        cases h
        rw [if_neg (by simp)]
        exact .quiet rfl rfl
      | false =>
        rw [(turnOnEffect s).2 hs hp] at h
        cases h
        rw [if_pos ⟨hs, rfl⟩]
        exact ⟨true, rfl, rfl⟩
    | turnOff =>
      cases hp : s.powered with
      | true =>
        rw [exec_turnOff_on hs hp] at h
        cases h
        exact ⟨false, rfl, rfl⟩
      | false =>
        rw [exec_turnOff_ignored (.inr hp)] at h
        cases h
        exact .quiet rfl rfl
    | sendPulse count width =>
      rw [lineAct]
      by_cases huser : s.mode = .user
      · rw [(sendPulseEffect count width s).2 hs huser] at h
        cases h
        rw [if_pos ⟨hs, huser⟩]
        exact ⟨s.powered, List.append_assoc _ _ _, rfl⟩
      · rw [exec_sendPulse_ignored (.inr huser)] at h
        cases h
        rw [if_neg (by simp [huser])]
        exact .quiet rfl rfl

/-- What a tick does on the line: LO or nothing, with the index as it was; or one loop, which ends at blue. -/
def TickShows (s t : State) : Prop :=
  (t.idx = s.idx ∧ ∃ p, t.trace = s.trace ++ restoreEvents p) ∨
    (t.idx = s.cfg.idxBlue ∧ t.trace = s.trace ++ loopEvents s.cfg s.idx s.hold)

theorem tick_shows (now : Time) (s : State) : TickShows s (tick now s) := by
  have loop : TickShows s (loopRGB s) := by
    rw [loopRGB_eq]
    exact .inr ⟨rfl, rfl⟩
  exact tick_elim (.inl ⟨rfl, true, (List.append_nil _).symm⟩) (.inl ⟨rfl, false, rfl⟩) loop (fun _ => loop)
    (fun _ => loop)

/-- A pulse activity is SEND_PULSE's, in USER mode. -/
theorem lineAct_eq_pulses {i : Instr} {s : State} {n w : Nat} (h : lineAct i s = .pulses n w) :
    ∃ count width, i = .sendPulse count width ∧ s.mode = .user ∧ w = width.toNat := by
  cases i with
  | sendPulse count width =>
    rw [lineAct] at h
    split at h
    · next huser =>
      cases h
      exact ⟨count, width, rfl, huser.2, rfl⟩
    · cases h
  | setColor | getColor | getMode | isAsync | setSpeed | getSpeed | turnOff | isOn => cases h
  | init | setMode | startAsync | stopAsync | turnOn =>
    rw [lineAct] at h
    split at h <;> cases h

/-! ## Raw pulses (R115) -/

theorem hold_mem_pulses {n w d : Nat} (h : LineEvent.hold d ∈ pulses n w) : d = w := by
  obtain ⟨pulse, hpulse, hd⟩ := List.mem_flatten.mp h
  obtain rfl := List.eq_of_mem_replicate hpulse
  simpa using hd

theorem hold_not_mem_restoreEvents (d : Nat) (p : Bool) : LineEvent.hold d ∉ restoreEvents p := by
  cases p <;> simp [restoreEvents]

/-- The holds of an activity that is no raw pulse train are the configuration's own. -/
theorem hold_mem_events {c : Config} {a : LineAct} {d : Nat} (ha : ∀ n w, a ≠ .pulses n w)
    (h : LineEvent.hold d ∈ a.events c) : d = c.tResetLowUs ∨ d = c.tResetHighUs ∨ d ∈ sweepWidths c := by
  cases a with
  | quiet => cases h
  | resync =>
    have hreset : d = c.tResetLowUs ∨ d = c.tResetHighUs := by simpa [LineAct.events, resyncEvents] using h
    exact hreset.imp_right .inl
  | sweep =>
    obtain ⟨evs, hevs, hd⟩ := List.mem_flatten.mp h
    obtain ⟨w, hw, rfl⟩ := List.mem_map.mp hevs
    exact .inr (.inr (hold_mem_pulses hd ▸ hw))
  | pulses n w => exact absurd rfl (ha n w)

theorem hold_mem_loopEvents {c : Config} {x : Index} {h : Holds} {d : Nat}
    (hd : LineEvent.hold d ∈ loopEvents c x h) : d = c.pulseWidthUs ∨ d = h.r ∨ d = h.g ∨ d = h.b := by
  have own {n : Nat} : LineEvent.hold d ∈ pulses n c.pulseWidthUs → d = c.pulseWidthUs := hold_mem_pulses
  simp only [loopEvents, List.mem_append, List.mem_cons, LineEvent.hold.injEq, reduceCtorEq, List.not_mem_nil,
    false_or, or_false] at hd
  tauto

/-- Settles O23: outside USER no command is a raw pulse train, and a tick that shows any hold shows a loop. -/
theorem rawPulsesOnlyInUserMode : Obligations.RawPulsesOnlyInUserMode := by
  refine ⟨fun i s t h hraw => ?_, fun now s => ?_⟩
  · obtain ⟨p, htrace, -⟩ := exec_shows h
    refine ⟨_, htrace, fun d hd => hold_mem_events (a := lineAct i s) (fun n w hpulses => ?_) ?_⟩
    · obtain ⟨count, width, hi, huser, -⟩ := lineAct_eq_pulses hpulses
      exact hraw huser count width hi
    · exact (List.mem_append.mp hd).resolve_right (hold_not_mem_restoreEvents d p)
  · obtain ⟨-, p, htrace⟩ | ⟨-, htrace⟩ := tick_shows now s
    · exact ⟨_, htrace, fun d hd => absurd hd (hold_not_mem_restoreEvents d p)⟩
    · exact ⟨_, htrace, fun d => hold_mem_loopEvents⟩

/-! ## The believed index (R111) -/

section Receiver

variable (c : Config) (x : Index) (evs : List LineEvent)

@[simp] theorem receiverAfter_nil : receiverAfter c x [] = x := by simp [receiverAfter]

@[simp] theorem receiverAfter_hi : receiverAfter c x (.hi :: evs) = receiverAfter c x evs := by simp [receiverAfter]

@[simp] theorem receiverAfter_hold (d : Nat) : receiverAfter c x (.hold d :: evs) = receiverAfter c x evs := by
  simp [receiverAfter]

/-- A LOW hold of a pulse, and of a reset. -/
theorem receiverAfter_low (w : Nat) : receiverAfter c x (.lo :: .hold w :: .hi :: evs) =
    receiverAfter c (if w < c.tResetLowUs then x + 1 else 0) evs := by
  rw [receiverAfter]

@[simp] theorem receiverAfter_restoreEvents (p : Bool) : receiverAfter c x (restoreEvents p) = x := by
  cases p <;> simp [restoreEvents, receiverAfter]

theorem receiverAfter_resyncEvents : receiverAfter c x (resyncEvents c ++ evs) = receiverAfter c 0 evs := by
  simp [resyncEvents, receiverAfter_low]

variable {c}

/-- Pulses below the reset hold are counted. -/
theorem receiverAfter_pulses {w : Nat} (hw : w < c.tResetLowUs) (n : Nat) :
    receiverAfter c x (pulses n w ++ evs) = receiverAfter c (x + BitVec.ofNat 3 n) evs := by
  induction n generalizing x with
  | zero => simp [pulses_zero]
  | succ n ih =>
    have hidx : x + 1 + BitVec.ofNat 3 n = x + BitVec.ofNat 3 (n + 1) := by
      rw [BitVec.ofNat_add]
      ac_rfl
    rw [pulses_succ, List.append_assoc]
    calc receiverAfter c x ([.lo, .hold w, .hi] ++ (pulses n w ++ evs))
      _ = receiverAfter c (x + 1) (pulses n w ++ evs) :=
        (receiverAfter_low c x (pulses n w ++ evs) w).trans (by rw [if_pos hw])
      _ = receiverAfter c (x + BitVec.ofNat 3 (n + 1)) evs := by rw [ih, hidx]

theorem receiverAfter_sweep {ws : List Nat} (hws : ∀ w ∈ ws, w < c.tResetLowUs) :
    receiverAfter c x ((ws.map (pulses 1)).flatten ++ evs) =
      receiverAfter c (x + BitVec.ofNat 3 ws.length) evs := by
  induction ws generalizing x with
  | nil => simp
  | cons w ws ih =>
    obtain ⟨hw, hws⟩ := List.forall_mem_cons.mp hws
    have hidx : x + BitVec.ofNat 3 1 + BitVec.ofNat 3 ws.length = x + BitVec.ofNat 3 (ws.length + 1) := by
      rw [BitVec.ofNat_add]
      ac_rfl
    rw [List.map_cons, List.flatten_cons, List.append_assoc, receiverAfter_pulses _ _ hw, ih _ hws, hidx,
      List.length_cons]

end Receiver

theorem le_sweepHiUs_of_mem_sweepWidths {c : Config} {w : Nat} (hw : w ∈ sweepWidths c) : w ≤ c.sweepHiUs := by
  obtain ⟨k, -, rfl⟩ := List.mem_map.mp hw
  exact Nat.sub_le _ _

/-- The ideal receiver follows an activity whose pulses are below the reset hold, whether LO ends it or not. -/
theorem receiverAfter_events {c : Config} {a : LineAct} (hsweep : c.sweepHiUs < c.tResetLowUs)
    (hpulses : ∀ n w, a = .pulses n w → w < c.tResetLowUs) (x : Index) (p : Bool) :
    receiverAfter c x (a.events c ++ restoreEvents p) = a.idxAfter c x := by
  cases a with
  | quiet => exact receiverAfter_restoreEvents c x p
  | resync => exact (receiverAfter_resyncEvents c x _).trans (receiverAfter_restoreEvents c 0 p)
  | sweep =>
    have hws : ∀ w ∈ sweepWidths c, w < c.tResetLowUs :=
      fun w hw => (le_sweepHiUs_of_mem_sweepWidths hw).trans_lt hsweep
    rw [LineAct.events, receiverAfter_sweep _ _ hws, receiverAfter_restoreEvents, sweepWidths_length,
      LineAct.idxAfter]
  | pulses n w =>
    rw [LineAct.events, receiverAfter_pulses _ _ (hpulses n w rfl), receiverAfter_restoreEvents, LineAct.idxAfter]

/-- It follows a loop round the three primaries to blue. -/
theorem receiverAfter_loopEvents {c : Config} (hpulse : c.pulseWidthUs < c.tResetLowUs) (x : Index) (h : Holds) :
    receiverAfter c x (loopEvents c x h) = c.idxBlue := by
  simp [loopEvents, receiverAfter_pulses _ _ hpulse, add_indexDelta]

/-- From `s` to `t` the trace grew by events that take an ideal receiver from the index of `s` to that of `t`. -/
def Heard (s t : State) : Prop := ∃ evs, t.trace = s.trace ++ evs ∧ t.idx = receiverAfter s.cfg s.idx evs

theorem Heard.silent {s t : State} (htrace : t.trace = s.trace) (hidx : t.idx = s.idx) : Heard s t :=
  ⟨[], htrace.trans (List.append_nil _).symm, hidx.trans (receiverAfter_nil _ _).symm⟩

/-- Every command is heard: a raw pulse is at most 65535 µs long, below the reset hold of R6. -/
theorem exec_heard {i : Instr} {s t : State} (hv : s.cfg.Valid) (hsweep : s.cfg.sweepHiUs < s.cfg.tResetLowUs)
    (h : exec i s = .next t) : Heard s t := by
  obtain ⟨p, htrace, hidx⟩ := exec_shows h
  refine ⟨_, htrace, hidx.trans (receiverAfter_events hsweep (fun n w hpulses => ?_) _ _).symm⟩
  obtain ⟨count, width, -, -, rfl⟩ := lineAct_eq_pulses hpulses
  have hwidth : width.toNat < 65536 := width.isLt
  have hreset := hv.reset_low
  omega

theorem tick_heard {s : State} (hpulse : s.cfg.pulseWidthUs < s.cfg.tResetLowUs) (now : Time) :
    Heard s (tick now s) := by
  obtain ⟨hidx, p, htrace⟩ | ⟨hidx, htrace⟩ := tick_shows now s
  · exact ⟨_, htrace, hidx.trans (receiverAfter_restoreEvents _ _ p).symm⟩
  · exact ⟨_, htrace, hidx.trans (receiverAfter_loopEvents hpulse _ _).symm⟩

/-- Settles O57: a step that is no RST is a command, a tick, or silent. -/
theorem beliefFollowsTheLine : Obligations.BeliefFollowsTheLine := by
  intro s t hv hpulse hsweep hrst h
  obtain ⟨ins, n, d, u, rfl, hcases⟩ := step_cases h
  rcases hcases with ⟨_, _, _, -, rfl⟩ | rfl | ⟨now, rfl⟩ | ⟨rest, hi, -⟩ | ⟨i, hexec⟩ | ⟨-, rfl⟩ |
    ⟨_, _, -, -, rfl⟩ | ⟨_, _, _, _, _, -, -, rfl⟩
  · exact Heard.silent rfl rfl
  · exact Heard.silent rfl rfl
  · exact tick_heard (s := { s with inputs := ins, nowMs := n, draws := d }) hpulse now
  · exact absurd (by rw [hi]; rfl) hrst
  · exact exec_heard (s := { s with parser := .idle, inputs := ins, nowMs := n, draws := d }) hv hsweep hexec
  · exact Heard.silent rfl rfl
  · exact Heard.silent rfl rfl
  · exact Heard.silent rfl rfl

/-! ## Busy times (R260) -/

@[simp] theorem busyTime_restoreEvents (p : Bool) : busyTime (restoreEvents p) = 0 := by
  cases p <;> rfl

theorem busyTime_resyncEvents (c : Config) : busyTime (resyncEvents c) = c.tResetLowUs + c.tResetHighUs := by
  simp [resyncEvents, busyTime]

theorem busyTime_loopEvents (c : Config) (x : Index) (h : Holds) : busyTime (loopEvents c x h) =
    (indexDelta x c.idxRed + indexDelta c.idxRed c.idxGreen + indexDelta c.idxGreen c.idxBlue) * c.pulseWidthUs +
      (h.r + h.g + h.b) := by
  simp only [loopEvents, busyTime_append, busyTime_pulses, busyTime]
  ring

theorem busyTime_sweep (ws : List Nat) : busyTime (ws.map (pulses 1)).flatten = ws.sum := by
  induction ws with
  | nil => rfl
  | cons w ws ih =>
    rw [List.map_cons, List.flatten_cons, busyTime_append, busyTime_pulses, ih, Nat.one_mul, List.sum_cons]

/-- The sum of an arithmetic ramp that does not fall below 0. -/
theorem sum_ramp {hi step n : Nat} (hfits : ∀ k < n, k * step ≤ hi) :
    ((List.range n).map fun k => hi - k * step).sum = n * hi - step * n * (n - 1) / 2 := by
  have hgauss : step * n * (n - 1) / 2 = (∑ k ∈ Finset.range n, k) * step := by
    rw [Finset.sum_range_id, Nat.mul_assoc, Nat.mul_div_assoc _ (Nat.even_mul_pred_self n).two_dvd, Nat.mul_comm]
  calc ((List.range n).map fun k => hi - k * step).sum
    _ = ∑ k ∈ Finset.range n, (hi - k * step) := rfl
    _ = ∑ _k ∈ Finset.range n, hi - ∑ k ∈ Finset.range n, k * step :=
      Finset.sum_tsub_distrib _ fun k hk => hfits k (Finset.mem_range.mp hk)
    _ = n * hi - step * n * (n - 1) / 2 := by
      rw [Finset.sum_const, Finset.card_range, smul_eq_mul, ← Finset.sum_mul, hgauss]

theorem sweepWidths_sum {c : Config} (hc : c.Valid) : (sweepWidths c).sum =
    nSweep c * c.sweepHiUs - c.sweepStepUs * nSweep c * (nSweep c - 1) / 2 :=
  sum_ramp fun k hk => le_of_add_le_right ((lt_nSweep_iff hc k).mp hk)

/-- A command is busy as long as its line activity is. -/
theorem exec_busy {i : Instr} {s t : State} (h : exec i s = .next t) {a : LineAct} (ha : lineAct i s = a) :
    Busy s t (busyTime (a.events s.cfg)) := by
  subst ha
  obtain ⟨p, htrace, -⟩ := exec_shows h
  exact ⟨_, htrace, by rw [busyTime_append, busyTime_restoreEvents, Nat.add_zero]⟩

/-- The commands that resync (R260). -/
theorem lineAct_eq_resync {i : Instr} {s : State}
    (h : (i = .stopAsync ∧ s.started = true) ∨ (i = .turnOn ∧ s.started = true ∧ s.powered = false) ∨
      (∃ id, i = .setMode id ∧ s.started = true ∧ s.mode = .user ∧ id.toNat < 3) ∨
      (∃ p0, i = .init p0 ∧ s.started = false ∧ p0 ≠ 0)) : lineAct i s = .resync := by
  obtain ⟨rfl, hs⟩ | ⟨rfl, hs⟩ | ⟨id, rfl, hs⟩ | ⟨p0, rfl, hs⟩ := h <;> exact if_pos hs

/-- Every other command is quiet (R260). -/
theorem lineAct_eq_quiet {i : Instr} {s : State}
    (hpulse : ∀ n w, i = .sendPulse n w → s.started = false ∨ s.mode ≠ .user)
    (hasync : i = .startAsync ∨ i = .stopAsync → s.started = false)
    (hon : i = .turnOn → s.started = false ∨ s.powered = true)
    (hmode : ∀ id, i = .setMode id → s.started = false ∨ s.mode ≠ .user ∨ 3 ≤ id.toNat)
    (hinit : ∀ p0, i = .init p0 → s.started = true ∨ p0 = 0) : lineAct i s = .quiet := by
  cases i with
  | setColor | getColor | getMode | isAsync | setSpeed | getSpeed | turnOff | isOn => rfl
  | init p0 => have h := hinit p0 rfl; exact if_neg (by grind)
  | setMode id => have h := hmode id rfl; exact if_neg (by grind)
  | startAsync => have h := hasync (.inl rfl); exact if_neg (by simp [h])
  | stopAsync => have h := hasync (.inr rfl); exact if_neg (by simp [h])
  | turnOn => have h := hon rfl; exact if_neg (by grind)
  | sendPulse n w => have h := hpulse n w rfl; exact if_neg (by grind)

theorem holdsOf_sum (c : Config) (rgb : Rgb) : (holdsOf c rgb).r + (holdsOf c rgb).g + (holdsOf c rgb).b =
    (rgb.r.toNat + rgb.g.toNat + rgb.b.toNat) * c.holdQuantumUs := by
  simp only [holdsOf, Nat.add_mul]

/-- A loop with the derived holds, by the colour (R132, R260). -/
theorem loopRGB_busy {s : State} (hhold : s.hold = holdsOf s.cfg s.rgb) : Busy s (loopRGB s)
    ((indexDelta s.idx s.cfg.idxRed + indexDelta s.cfg.idxRed s.cfg.idxGreen +
      indexDelta s.cfg.idxGreen s.cfg.idxBlue) * s.cfg.pulseWidthUs +
      (s.rgb.r.toNat + s.rgb.g.toNat + s.rgb.b.toNat) * s.cfg.holdQuantumUs) := by
  refine ⟨loopEvents s.cfg s.idx s.hold, by rw [loopRGB_eq], ?_⟩
  rw [busyTime_loopEvents, hhold, holdsOf_sum]

/-- A tick of a block that is not started, not powered, or in USER, holds nothing (R260). -/
theorem tick_busy_zero {s : State} (h : s.started = false ∨ s.powered = false ∨ s.mode = .user) (now : Time) :
    Busy s (tick now s) 0 := by
  cases hs : s.started with
  | false => exact ⟨[], by rw [tick_stopped hs, List.append_nil], rfl⟩
  | true =>
    cases hp : s.powered with
    | false => exact ⟨[.lo], by rw [tick_unpowered hs hp]; rfl, rfl⟩
    | true =>
      have hmode : s.mode = .user := by simpa [hs, hp] using h
      exact ⟨[], by rw [tick_user hs hp hmode, List.append_nil], rfl⟩

/-- Settles O58: the operations by their events, the commands by their line activity. -/
theorem busyTimeTable : Obligations.BusyTimeTable := by
  refine ⟨fun n w s => ⟨pulses n w, by rw [pulseTrain_eq], busyTime_pulses n w⟩, fun x s => ?_, fun s => ?_,
    fun s => loopRGB_busy, fun now s h => tick_busy_zero h now, fun i s t hv h => ⟨?_, ?_, fun hi => ?_, ?_⟩⟩
  · refine ⟨pulses (indexDelta s.idx x) s.cfg.pulseWidthUs ++ [.hi], by rw [setIndex_eq, List.append_assoc], ?_⟩
    rw [busyTime_append, busyTime_pulses]
    rfl
  · exact ⟨resyncEvents s.cfg, by rw [resync_eq], busyTime_resyncEvents s.cfg⟩
  · rintro n w rfl hs huser
    exact busyTime_pulses n.toNat w.toNat ▸ exec_busy h (if_pos ⟨hs, huser⟩)
  · rintro rfl hs
    refine ⟨nSweep s.cfg, rfl, ?_⟩
    rw [← sweepWidths_sum hv, ← busyTime_sweep]
    exact exec_busy h (if_pos hs)
  · exact busyTime_resyncEvents s.cfg ▸ exec_busy h (lineAct_eq_resync hi)
  · exact fun hpulse hasync hon hmode hinit => exec_busy h (lineAct_eq_quiet hpulse hasync hon hmode hinit)

/-! ## The bound of a tick (R261) -/

/-- A tick of a lit block outside USER shows one loop, whether it advances after it or not. -/
theorem tick_trace_lit {s : State} (hs : s.started = true) (hp : s.powered = true) (hmode : s.mode ≠ .user)
    (now : Time) : (tick now s).trace = (loopRGB s).trace := by
  cases hm : s.mode with
  | user => exact absurd hm hmode
  | solid => rw [tick_solid hs hp hm]
  | jump =>
    rw [tick_jump hs hp hm]
    unfold advanceAfter
    split <;> rfl
  | fade =>
    rw [tick_fade hs hp hm]
    unfold advanceAfter
    split <;> rfl

/-- Settles O59: each of the three SetIndex takes at most 7 pulses and each channel is at most 255; from blue the pulses
go once or twice round the eight states. -/
theorem tickIsBounded : Obligations.TickIsBounded := by
  refine ⟨fun now s hs hp hmode hhold => ?_, fun c hc => ⟨_, rfl, ?_⟩⟩
  · obtain ⟨evs, htrace, hbusy⟩ := loopRGB_busy hhold
    refine ⟨_, ⟨evs, (tick_trace_lit hs hp hmode now).trans htrace, hbusy⟩, ?_⟩
    have hred := indexDelta_lt s.idx s.cfg.idxRed
    have hgreen := indexDelta_lt s.cfg.idxRed s.cfg.idxGreen
    have hblue := indexDelta_lt s.cfg.idxGreen s.cfg.idxBlue
    have hr := s.rgb.r.isLt
    have hg := s.rgb.g.isLt
    have hb := s.rgb.b.isLt
    exact Nat.add_le_add (Nat.mul_le_mul_right _ (by omega)) (Nat.mul_le_mul_right _ (by omega))
  · obtain ⟨hrg, hrb, hgb⟩ := hc.idx_distinct
    bv_omega

end Sys2Proof.Machine
end

section
/-! PROOFS. 10_state.md: the invariants of R40, which RST establishes (R38) and every step keeps. -/

namespace Sys2Proof.Machine

/-! ## RST -/

/-- The reset values meet the invariants. -/
theorem stateInv_resetWith {c : Config} (hc : c.Valid) : StateInv (State.resetWith c) where
  cfg_valid := hc
  hold_derived := by simp [State.resetWith, holdsOf]
  rate_derived := (rateOf_zero c).symm
  msPerDeg_derived := by rw [msPerDegOf, State.resetWith, rateOf_zero]
  jumpMs_derived := by rw [jumpMsOf, msPerDegOf, State.resetWith, rateOf_zero]
  parser_wf := trivial
  line_idle := rfl
  before_init _ := ⟨rfl, rfl, rfl, rfl, rfl, rfl, rfl, rfl, rfl⟩

theorem config_tc_valid : Config.tc.Valid := by decide

/-- Settles O15: the invariants of the reset values, and what `rstStep` keeps. -/
theorem resetMeetsInvariants : Obligations.ResetMeetsInvariants :=
  ⟨fun _ => stateInv_resetWith, stateInv_resetWith config_tc_valid,
    fun s rest hv hi => ⟨rstStep rest s, step_rst hv hi, rfl, rfl, rfl, rfl⟩⟩

/-! ## Updates that keep the invariants -/

section Updates

variable {s : State} (h : StateInv s)
include h

/-- Writes of the port and of the model's own fields keep the invariants, if the parser stays well formed. -/
theorem StateInv.port {p : Parser} (hp : p.wf) (bs : List Byte) (now : Time) (ins : List Input) (n : Nat) :
    StateInv { s with parser := p, rsp := bs, nowMs := now, inputs := ins, draws := n } :=
  { h with parser_wf := hp }

/-- Replies keep the invariants. -/
theorem StateInv.replied (bs : List Byte) : StateInv { s with rsp := bs } :=
  h.port h.parser_wf bs s.nowMs s.inputs s.draws

variable (hs : s.started = true)
include hs

/-- Once started, what leaves the line at its idle level may write the flags and the index. -/
theorem StateInv.lit {l : Line} {p : Bool} (hl : l = idleLine true p) (a : Bool) (m : Mode) (x : Index)
    (evs : List LineEvent) (bs : List Byte) :
    StateInv { s with powered := p, async := a, mode := m, idx := x, line := l, trace := evs, rsp := bs } :=
  { h with
    line_idle := hl.trans (by rw [hs])
    before_init := fun hstopped => nomatch hs.symm.trans hstopped }

/-- Once started, the colour may be written with its holds, and the hue state and the advance time with it. -/
theorem StateInv.coloured (c : Rgb) (j : Fin 6) (now : Time) (bs : List Byte) :
    StateInv { s with rgb := c, hold := holdsOf s.cfg c, jumpIdx := j, lastT := now, rsp := bs } :=
  { h with
    hold_derived := rfl
    before_init := fun hstopped => nomatch hs.symm.trans hstopped }

/-- Once started, the speed may be written with its intervals. -/
theorem StateInv.paced (v : Byte) (bs : List Byte) :
    StateInv { s with
      speed := v, rate := rateOf s.cfg v, msPerDeg := msPerDegOf s.cfg v, jumpMs := jumpMsOf s.cfg v, rsp := bs } :=
  { h with
    rate_derived := rfl
    msPerDeg_derived := rfl
    jumpMs_derived := rfl
    before_init := fun hstopped => nomatch hs.symm.trans hstopped }

end Updates

/-! ## Ticks -/

theorem StateInv.loopRGB {s : State} (h : StateInv s) (hs : s.started = true) (hp : s.powered = true) :
    StateInv (loopRGB s) := by
  rw [loopRGB_eq]
  exact h.lit hs (by rw [hp]; rfl) _ _ _ _ _

theorem tick_keeps_stateInv {s : State} (h : StateInv s) (now : Time) : StateInv (tick now s) := by
  cases hs : s.started with
  | false => rwa [tick_stopped hs]
  | true =>
    cases hp : s.powered with
    | false =>
      rw [tick_unpowered hs hp]
      exact h.lit hs (by rw [hp]; rfl) _ _ _ _ _
    | true =>
      have hloop : StateInv (loopRGB s) := h.loopRGB hs hp
      have hstarted : (loopRGB s).started = true := by rw [loopRGB_eq]; exact hs
      cases hmode : s.mode with
      | user => rwa [tick_user hs hp hmode]
      | solid => rwa [tick_solid hs hp hmode]
      | jump =>
        rw [tick_jump hs hp hmode]
        unfold advanceAfter
        split
        · exact hloop.coloured hstarted _ _ _ _
        · exact hloop
      | fade =>
        rw [tick_fade hs hp hmode]
        unfold advanceAfter
        split
        · exact hloop.coloured hstarted _ _ _ _
        · exact hloop

/-! ## Commands -/

/-- The first INIT starts the block with derived intervals and the line at its idle level. -/
theorem exec_init_keeps_stateInv {p0 : Byte} {s t : State} (h : StateInv s) (he : exec (.init p0) s = .next t) :
    StateInv t := by
  cases hs : s.started with
  | true =>
    rw [exec_init_started hs] at he
    cases he
    exact h.replied _
  | false =>
    have started {p : Bool} {l : Line} (hl : l = idleLine true p) (lt : Time) (x : Index) (evs : List LineEvent)
        (bs : List Byte) : StateInv { s with
          started := true, powered := p, rate := rateOf s.cfg s.speed, msPerDeg := msPerDegOf s.cfg s.speed
          jumpMs := jumpMsOf s.cfg s.speed, lastT := lt, idx := x, line := l, trace := evs, rsp := bs } :=
      { h with
        rate_derived := rfl
        msPerDeg_derived := rfl
        jumpMs_derived := rfl
        line_idle := hl
        before_init := nofun }
    by_cases hp0 : p0 = 0
    · rw [(initEffect p0 s).2.2 hs hp0] at he
      cases he
      exact started rfl _ _ _ _
    · rw [(initEffect p0 s).2.1 hs hp0] at he
      cases he
      exact started rfl _ _ _ _

theorem exec_setMode_keeps_stateInv {id : Byte} {s t : State} (h : StateInv s) (hs : s.started = true)
    (he : exec (.setMode id) s = .next t) : StateInv t := by
  obtain ⟨-, rfl⟩ | ⟨m, -, ⟨-, rfl⟩ | ⟨-, rfl⟩⟩ := exec_setMode_cases hs he
  · exact h.replied _
  · exact h.lit hs (h.line_idle.trans (by rw [hs])) _ _ _ _ _
  · rw [unpoweredRestore_eq, resync_eq]
    exact h.lit hs rfl _ _ _ _ _

/-- Every command keeps the invariants. -/
theorem exec_keeps_stateInv {i : Instr} {s t : State} (h : StateInv s) (he : exec i s = .next t) : StateInv t := by
  by_cases hi : ∃ p0, i = .init p0
  · obtain ⟨p0, rfl⟩ := hi
    exact exec_init_keeps_stateInv h he
  cases hs : s.started with
  | false =>
    rw [exec_stopped hs (by simpa using hi)] at he
    cases he
    exact h.replied _
  | true =>
    have hline : s.line = idleLine true s.powered := h.line_idle.trans (by rw [hs])
    cases i with
    | init p0 => exact absurd ⟨p0, rfl⟩ hi
    | getColor | getMode | isAsync | getSpeed | isOn => cases he; exact h.replied _
    | setColor r g b =>
      rw [(setColorEffect r g b s).2 hs] at he
      cases he
      exact h.coloured hs ⟨r, g, b⟩ _ _ _
    | setSpeed value =>
      rw [(setSpeedEffect value s).2 hs] at he
      cases he
      exact h.paced hs _ _
    | setMode id => exact exec_setMode_keeps_stateInv h hs he
    | startAsync =>
      rw [(startAsyncEffect s).2 hs] at he
      cases he
      exact h.lit hs rfl _ _ _ _ _
    | stopAsync =>
      rw [(stopAsyncEffect s).2 hs] at he
      cases he
      exact h.lit hs rfl _ _ _ _ _
    | turnOn =>
      cases hp : s.powered with
      | true =>
        rw [exec_turnOn_ignored (.inr hp)] at he
        cases he
        exact h.replied _
      | false =>
        rw [(turnOnEffect s).2 hs hp] at he
        cases he
        exact h.lit hs rfl _ _ _ _ _
    | turnOff =>
      cases hp : s.powered with
      | true =>
        rw [exec_turnOff_on hs hp] at he
        cases he
        exact h.lit hs rfl _ _ _ _ _
      | false =>
        rw [exec_turnOff_ignored (.inr hp)] at he
        cases he
        exact h.replied _
    | sendPulse count width =>
      by_cases huser : s.mode = .user
      · rw [(sendPulseEffect count width s).2 hs huser] at he
        cases he
        refine h.lit hs ?_ _ _ _ _ _
        rw [hline]
        cases s.powered <;> simp [idleLine]
      · rw [exec_sendPulse_ignored (.inr huser)] at he
        cases he
        exact h.replied _

/-! ## Steps -/

/-- Settles O51: RST gives the reset values; every other step is a command, a tick, or a move of the port. -/
theorem stepKeepsInvariants : Obligations.StepKeepsInvariants := by
  intro s t h hstep
  obtain ⟨ins, now, n, u, hu, hcases⟩ := step_cases hstep
  have moved {p : Parser} (hp : p.wf) (bs : List Byte) : StateInv { u with parser := p, rsp := bs } :=
    hu ▸ h.port hp bs now ins n
  rcases hcases with ⟨_, _, _, -, rfl⟩ | rfl | ⟨now, rfl⟩ | ⟨rest, -, rfl⟩ | ⟨i, hexec⟩ | ⟨-, rfl⟩ |
    ⟨op, t0, -, hk, rfl⟩ | ⟨op, got, t0, b, t1, hp, hk, rfl⟩
  · exact moved (p := .idle) trivial _
  · exact hu ▸ h.port h.parser_wf _ now ins n
  · exact tick_keeps_stateInv (hu ▸ h.port h.parser_wf _ _ ins n) now
  · exact (stateInv_resetWith h.cfg_valid).port (p := .idle) trivial _ _ rest _
  · exact exec_keeps_stateInv (moved (p := .idle) trivial u.rsp) hexec
  · exact hu ▸ h.port h.parser_wf _ now ins n
  · exact moved (p := .collect op [] t0) (Nat.pos_of_ne_zero hk) u.rsp
  · have hlt : got.length < op.paramCount := by
      have hwf : s.parser.wf := h.parser_wf
      rwa [hp] at hwf
    refine moved (p := .collect op (got ++ [b]) t1) ?_ u.rsp
    rw [Parser.wf, List.length_append, List.length_singleton]
    omega

end Sys2Proof.Machine
end

section
/-! PROOFS. 60_exceptions.md: one reply to each command, a failure exactly where the list says (R221, R223). -/

namespace Sys2Proof.Machine

@[simp] theorem pulseTrain_rsp (n w : Nat) (s : State) : (pulseTrain n w s).rsp = s.rsp := by rw [pulseTrain_eq]
@[simp] theorem sweepPulses_rsp (ws : List Nat) (s : State) : (sweepPulses ws s).rsp = s.rsp := by rw [sweepPulses_eq]
@[simp] theorem resync_rsp (s : State) : (resync s).rsp = s.rsp := rfl
@[simp] theorem unpoweredRestore_rsp (s : State) : (unpoweredRestore s).rsp = s.rsp := by rw [unpoweredRestore_eq]

/-- The commands on the failure list: SET_MODE before INIT, or with an id that is no mode. -/
def Fails (i : Instr) (s : State) : Prop := ∃ id, i = .setMode id ∧ (s.started = false ∨ 3 < id.toNat)

/-- A command on the list replies 00 and does nothing else. -/
theorem exec_of_fails {i : Instr} {s : State} (h : Fails i s) :
    exec i s = .next { s with rsp := s.rsp ++ [0x00] } := by
  obtain ⟨id, rfl, hfails⟩ := h
  exact (setModeEffect id s).1 hfails

theorem exec_setMode_acks {id : Byte} {s t : State} (hfails : ¬ Fails (.setMode id) s)
    (h : exec (.setMode id) s = .next t) : t.rsp = s.rsp ++ [ackByte] := by
  have hs : s.started = true := by
    by_contra hs
    exact hfails ⟨id, rfl, .inl (Bool.eq_false_of_not_eq_true hs)⟩
  obtain ⟨hid, -⟩ | ⟨m, -, ⟨-, rfl⟩ | ⟨-, rfl⟩⟩ := exec_setMode_cases hs h
  · exact absurd ⟨id, rfl, .inr hid⟩ hfails
  · rfl
  · simp

/-- Every other command replies the ack and the data of its reply. -/
theorem exec_rsp_of_not_fails {i : Instr} {s t : State} (hfails : ¬ Fails i s) (h : exec i s = .next t) :
    ∃ data, data.length = replyDataCount i ∧ t.rsp = s.rsp ++ ackByte :: data := by
  have gate {body} (hbody : (body s).rsp = s.rsp ++ [ackByte]) :
      (whenStarted ackByte body s).rsp = s.rsp ++ [ackByte] :=
    whenStarted_elim (P := (·.rsp = s.rsp ++ [ackByte])) rfl hbody
  cases i with
  | getColor | getMode | isAsync | getSpeed | isOn => cases h; exact ⟨_, rfl, rfl⟩
  | init p0 =>
    refine ⟨[], rfl, ?_⟩
    cases h
    split
    · rfl
    · split <;> rfl
  | setMode id => exact ⟨[], rfl, exec_setMode_acks hfails h⟩
  | setColor r g b => cases h; exact ⟨[], rfl, gate rfl⟩
  | setSpeed value => cases h; exact ⟨[], rfl, gate rfl⟩
  | startAsync => cases h; exact ⟨[], rfl, gate (by simp)⟩
  | stopAsync => cases h; exact ⟨[], rfl, gate (by simp)⟩
  | turnOn => cases h; exact ⟨[], rfl, gate (by split <;> simp)⟩
  | turnOff => cases h; exact ⟨[], rfl, gate (by split <;> simp)⟩
  | sendPulse count width => cases h; exact ⟨[], rfl, gate (by split <;> simp)⟩

/-- Settles O55: by whether the command is on the failure list. -/
theorem everyCommandRepliesOnce : Obligations.EveryCommandRepliesOnce := by
  intro i s t h
  by_cases hfails : Fails i s
  · rw [exec_of_fails hfails] at h
    cases h
    exact ⟨0x00, [], rfl, .inr ⟨rfl, rfl⟩, iff_of_true rfl hfails, fun _ => rfl⟩
  · obtain ⟨data, hlen, hrsp⟩ := exec_rsp_of_not_fails hfails h
    have hack : ackByte ≠ 0x00 := by decide
    exact ⟨ackByte, data, hrsp, .inl ⟨rfl, hlen⟩, iff_of_false hack hfails, fun hzero => absurd hzero hack⟩

end Sys2Proof.Machine
end

section
/-! PROOFS. 45_speed_model.md: the intervals are positive and do not grow with the speed (R214). -/

namespace Sys2Proof.Machine

theorem rateOf_mono (c : Config) {v w : Byte} (h : v.toNat ≤ w.toNat) : rateOf c v ≤ rateOf c w :=
  Nat.add_le_add_left (Nat.div_le_div_right (Nat.mul_le_mul_right _ h)) _

/-- No rate is above `MAX_RATE`, which R6 bounds by 1000. -/
theorem rateOf_le {c : Config} (hc : c.Valid) (v : Byte) : rateOf c v ≤ 1000 :=
  calc rateOf c v ≤ rateOf c 255 := rateOf_mono c (Nat.le_of_lt_succ v.isLt)
    _ = c.maxRate := rateOf_full hc.rate_le
    _ ≤ 1000 := hc.maxRate_le

theorem msPerDegOf_pos {c : Config} (hc : c.Valid) (v : Byte) : 1 ≤ msPerDegOf c v :=
  Nat.div_pos (rateOf_le hc v) (rateOf_pos hc v)

theorem msPerDegOf_anti {c : Config} (hc : c.Valid) {v w : Byte} (h : v.toNat ≤ w.toNat) :
    msPerDegOf c w ≤ msPerDegOf c v :=
  Nat.div_le_div_left (rateOf_mono c h) (rateOf_pos hc v)

/-- Settles O50: `jumpMs` is 60 times `msPerDeg`. -/
theorem intervalsShrinkWithSpeed : Obligations.IntervalsShrinkWithSpeed := fun _ hc v _ =>
  ⟨msPerDegOf_pos hc v, Nat.mul_le_mul_right 60 (msPerDegOf_pos hc v),
    fun h => ⟨msPerDegOf_anti hc h, Nat.mul_le_mul_right 60 (msPerDegOf_anti hc h)⟩⟩

end Sys2Proof.Machine
end
